-- ==== Sys2Proof/Word.lean ====
section
/-! DEFINITION. The byte, the one width in which the CFD receives, stores and emits data (spec/00_scope.md R8). -/

namespace Sys2Proof

/-- A byte (`u8`): an unsigned 8-bit value 0..255 (spec/00_scope.md R8). -/
abbrev Byte := BitVec 8

end Sys2Proof
end

