-- ==== Sys2Proof/Config.lean ====
section
/-! DEFINITION. The configuration record of the CFD (spec/00_scope.md R6, R7) and the names its parameters range over.
The record is an argument of everything below: no value is fixed but by `Config.ref`, the spec's reference record. -/

namespace Sys2Proof

/-- Which payload layout the indicator commands have (spec/00_scope.md R6 `VARIANT`; spec/30_encoding.md R66). -/
inductive Variant where
  /-- Indicator payloads carry a layer byte. -/
  | layered
  /-- They do not; the layer is 0 (spec/43_indicator_commands.md R150). -/
  | singleLayer
deriving DecidableEq, Repr

/-- What a known command does when its payload is shorter than its layout (spec/30_encoding.md R68). -/
inductive ShortPayload where
  /-- The command has no effect. -/
  | ignore
  /-- Every missing field reads as `0x00`. -/
  | zeroFill
deriving DecidableEq, Repr

/-- The two delivery modes (spec/00_scope.md R2), the `src` of `Dispatch` (spec/44_passthrough_commands.md R170). -/
inductive Source where
  /-- The streaming decoder. -/
  | stream
  /-- The block-mode decoder. -/
  | block
deriving DecidableEq, Repr

/-- The fifteen known commands, in the source's listing order (spec/30_encoding.md R64). -/
inductive CommandName where
  | reset
  | setMode
  | toggleMatrix
  | setMatrixColor
  | toggleIndicator
  | setIndicatorColor
  | enableIndicator
  | disableIndicator
  | activateLayer
  | setSpeed
  | setMuteStatus
  | endCall
  | echo
  | connect
  | disconnect
deriving DecidableEq, Repr

/-- Every command name, in listing order (spec/30_encoding.md R64). -/
def CommandName.all : List CommandName :=
  [.reset, .setMode, .toggleMatrix, .setMatrixColor, .toggleIndicator, .setIndicatorColor, .enableIndicator,
    .disableIndicator, .activateLayer, .setSpeed, .setMuteStatus, .endCall, .echo, .connect, .disconnect]

/-- The parameter `CMD_ID`: the 8-bit id of each known command (spec/00_scope.md R6; spec/30_encoding.md R64).
A record of fifteen bytes, so that it is plain data. -/
structure CmdIds where
  reset : Byte
  setMode : Byte
  toggleMatrix : Byte
  setMatrixColor : Byte
  toggleIndicator : Byte
  setIndicatorColor : Byte
  enableIndicator : Byte
  disableIndicator : Byte
  activateLayer : Byte
  setSpeed : Byte
  setMuteStatus : Byte
  endCall : Byte
  echo : Byte
  connect : Byte
  disconnect : Byte
deriving DecidableEq, Repr

/-- `CMD_ID(c)` (spec/30_encoding.md R64). -/
def CmdIds.id (ids : CmdIds) : CommandName → Byte
  | .reset => ids.reset
  | .setMode => ids.setMode
  | .toggleMatrix => ids.toggleMatrix
  | .setMatrixColor => ids.setMatrixColor
  | .toggleIndicator => ids.toggleIndicator
  | .setIndicatorColor => ids.setIndicatorColor
  | .enableIndicator => ids.enableIndicator
  | .disableIndicator => ids.disableIndicator
  | .activateLayer => ids.activateLayer
  | .setSpeed => ids.setSpeed
  | .setMuteStatus => ids.setMuteStatus
  | .endCall => ids.endCall
  | .echo => ids.echo
  | .connect => ids.connect
  | .disconnect => ids.disconnect

/-- The configuration record, fixed at configuration time (spec/00_scope.md R6, R7; spec/10_state.md R32). -/
structure Config where
  /-- `MAX_LAYERS`, 1..256. -/
  maxLayers : Nat
  /-- `MAX_LEDS`, 1..256. -/
  maxLeds : Nat
  /-- `MAX_BUF_LEN`, 4 or 5. -/
  maxBufLen : Nat
  /-- `VARIANT`. -/
  variant : Variant
  /-- `BLOCK_LEN`, at least 1. -/
  blockLen : Nat
  /-- `CMD_ID`, injective. -/
  cmdIds : CmdIds
  /-- `SHORT_PAYLOAD`. -/
  shortPayload : ShortPayload
  /-- `UG_LEFT`. -/
  ugLeft : Byte
  /-- `UG_RIGHT`. -/
  ugRight : Byte
deriving DecidableEq, Repr

/-- `REF_IDS`: the reference assignment of ids, the spec's own choice (spec/30_encoding.md R64, decision D1). -/
def CmdIds.ref : CmdIds where
  reset := 0x01
  setMode := 0x02
  toggleMatrix := 0x03
  setMatrixColor := 0x04
  toggleIndicator := 0x05
  setIndicatorColor := 0x06
  enableIndicator := 0x07
  disableIndicator := 0x08
  activateLayer := 0x09
  setSpeed := 0x0A
  setMuteStatus := 0x0B
  endCall := 0x0C
  echo := 0x0D
  connect := 0x0E
  disconnect := 0x0F

/-- `REF`: the reference configuration (spec/00_scope.md R7). DESIGN CHOICE of the spec, for tests: it says nothing
of any real build (log 1). -/
def Config.ref : Config where
  maxLayers := 4
  maxLeds := 10
  maxBufLen := 5
  variant := .layered
  blockLen := 8
  cmdIds := .ref
  shortPayload := .ignore
  ugLeft := 8
  ugRight := 9

end Sys2Proof
end

