-- ==== Sys2Proof/Syntax.lean ====
section
/-! DEFINITION. The instructions of the CFD: the fifteen commands of spec/opcode_table.json.
A command is what `Dispatch(src, cmd, p)` hands over (spec/44_passthrough_commands.md R170): its name, the path it came
by and the payload as delivered. The payload stays a list of bytes because what its bytes mean depends on `VARIANT`
and because a payload may be short or long for its layout (spec/30_encoding.md R66, R68, R69): the fields are read by
Sys2Proof/Machine/Operands.lean, once for all commands. -/

namespace Sys2Proof

/-- One constructor per row of spec/opcode_table.json. `src` is the path the command came by, `p` the delivered
payload; the layouts are those of spec/30_encoding.md R66 (Layered, then SingleLayer where it differs). -/
inductive Instr where
  /-- `Reset`: magic in `p[0..4)` (R173). -/
  | reset (src : Source) (p : List Byte)
  /-- `SetMode`: `[persist, mode]` (R174). -/
  | setMode (src : Source) (p : List Byte)
  /-- `ToggleMatrix`: `[persist]` (R175). -/
  | toggleMatrix (src : Source) (p : List Byte)
  /-- `SetMatrixColor`: `[persist, c1, c2, c3]` (R176). -/
  | setMatrixColor (src : Source) (p : List Byte)
  /-- `ToggleIndicator`: `[layer, led]` or `[led]` (R151). -/
  | toggleIndicator (src : Source) (p : List Byte)
  /-- `SetIndicatorColor`: `[layer, led, c1, c2, c3]` or `[led, c1, c2, c3]` (R152). -/
  | setIndicatorColor (src : Source) (p : List Byte)
  /-- `EnableIndicator`: `[layer, led]` or `[led]` (R153). -/
  | enableIndicator (src : Source) (p : List Byte)
  /-- `DisableIndicator`: `[layer, led]` or `[led]` (R154). -/
  | disableIndicator (src : Source) (p : List Byte)
  /-- `ActivateLayer`: `[layer]` (R177). -/
  | activateLayer (src : Source) (p : List Byte)
  /-- `SetSpeed`: `[persist, speed]` (R178). -/
  | setSpeed (src : Source) (p : List Byte)
  /-- `SetMuteStatus`: `[enabled]` (R179). -/
  | setMuteStatus (src : Source) (p : List Byte)
  /-- `EndCall`: no payload field (R180). -/
  | endCall (src : Source) (p : List Byte)
  /-- `Echo`: all of `p` (R181). -/
  | echo (src : Source) (p : List Byte)
  /-- `Connect`: no payload field (R182). -/
  | connect (src : Source) (p : List Byte)
  /-- `Disconnect`: no payload field (R183). -/
  | disconnect (src : Source) (p : List Byte)
deriving DecidableEq, Repr

/-- The command's name. -/
def Instr.name : Instr → CommandName
  | .reset _ _ => .reset
  | .setMode _ _ => .setMode
  | .toggleMatrix _ _ => .toggleMatrix
  | .setMatrixColor _ _ => .setMatrixColor
  | .toggleIndicator _ _ => .toggleIndicator
  | .setIndicatorColor _ _ => .setIndicatorColor
  | .enableIndicator _ _ => .enableIndicator
  | .disableIndicator _ _ => .disableIndicator
  | .activateLayer _ _ => .activateLayer
  | .setSpeed _ _ => .setSpeed
  | .setMuteStatus _ _ => .setMuteStatus
  | .endCall _ _ => .endCall
  | .echo _ _ => .echo
  | .connect _ _ => .connect
  | .disconnect _ _ => .disconnect

/-- The path the command came by. -/
def Instr.src : Instr → Source
  | .reset s _ | .setMode s _ | .toggleMatrix s _ | .setMatrixColor s _ | .toggleIndicator s _
  | .setIndicatorColor s _ | .enableIndicator s _ | .disableIndicator s _ | .activateLayer s _ | .setSpeed s _
  | .setMuteStatus s _ | .endCall s _ | .echo s _ | .connect s _ | .disconnect s _ => s

/-- The payload as delivered. -/
def Instr.payload : Instr → List Byte
  | .reset _ p | .setMode _ p | .toggleMatrix _ p | .setMatrixColor _ p | .toggleIndicator _ p
  | .setIndicatorColor _ p | .enableIndicator _ p | .disableIndicator _ p | .activateLayer _ p | .setSpeed _ p
  | .setMuteStatus _ p | .endCall _ p | .echo _ p | .connect _ p | .disconnect _ p => p

/-- The command of a given name, path and payload. -/
def Instr.ofName (c : CommandName) (src : Source) (p : List Byte) : Instr :=
  match c with
  | .reset => .reset src p
  | .setMode => .setMode src p
  | .toggleMatrix => .toggleMatrix src p
  | .setMatrixColor => .setMatrixColor src p
  | .toggleIndicator => .toggleIndicator src p
  | .setIndicatorColor => .setIndicatorColor src p
  | .enableIndicator => .enableIndicator src p
  | .disableIndicator => .disableIndicator src p
  | .activateLayer => .activateLayer src p
  | .setSpeed => .setSpeed src p
  | .setMuteStatus => .setMuteStatus src p
  | .endCall => .endCall src p
  | .echo => .echo src p
  | .connect => .connect src p
  | .disconnect => .disconnect src p

end Sys2Proof
end

