-- ==== Sys2Proof/WellFormed.lean ====
section
/-! DEFINITION. What a valid configuration record is (spec/00_scope.md R6, R7), and which payloads a decoder can
deliver under it (spec/40_stream_decoder.md R107, spec/41_block_decoder.md R120). -/

namespace Sys2Proof

/-- `CMD_ID` is injective (spec/00_scope.md R6; spec/30_encoding.md R64). -/
def CmdIds.injective (ids : CmdIds) : Bool :=
  CommandName.all.all fun c => CommandName.all.all fun d => decide (ids.id c = ids.id d → c = d)

/-- The constraints of spec/00_scope.md R6 on a configuration record. -/
def Config.wf (cfg : Config) : Bool :=
  decide (1 ≤ cfg.maxLayers) && decide (cfg.maxLayers ≤ 256) && decide (1 ≤ cfg.maxLeds) &&
    decide (cfg.maxLeds ≤ 256) && decide (cfg.maxBufLen = 4 ∨ cfg.maxBufLen = 5) && decide (1 ≤ cfg.blockLen) &&
    cfg.cmdIds.injective

/-- The payload lengths each path delivers: at most `MAX_BUF_LEN` bytes by the stream (spec/40_stream_decoder.md
R107), exactly `BLOCK_LEN - 1` by the block path (spec/41_block_decoder.md R120). -/
def Instr.wf (cfg : Config) (i : Instr) : Bool :=
  match i.src with
  | .stream => decide (i.payload.length ≤ cfg.maxBufLen)
  | .block => decide (i.payload.length + 1 = cfg.blockLen)

end Sys2Proof
end

