-- ==== Sys2Proof/Decode.lean ====
section
/-! DEFINITION. From bytes to commands and back (spec/30_encoding.md). `decodeCommand` is the lookup by id that the
command unit uses; `decode` reads one whole frame of either format off a list of bytes; `encode` writes the frame. -/

namespace Sys2Proof

/-- Why a list of bytes is no command. -/
inductive DecodeError where
  /-- No byte for the command id. -/
  | noCommandByte
  /-- A streaming frame without its length byte (spec/30_encoding.md R61). -/
  | noLengthByte
  /-- A streaming frame with fewer payload bytes than it declares (spec/30_encoding.md R61). -/
  | payloadIncomplete
  /-- Fewer than `BLOCK_LEN` bytes for a block frame (spec/30_encoding.md R63). -/
  | frameIncomplete
  /-- The id is unknown (spec/30_encoding.md R65). -/
  | unknownId (id : Byte)
deriving DecidableEq, Repr

/-- The command whose id is `id`, if it is known (spec/30_encoding.md R65). -/
def lookupId (cfg : Config) (id : Byte) : Option CommandName :=
  CommandName.all.find? fun c => cfg.cmdIds.id c == id

/-- The command that `Dispatch(src, id, p)` performs (spec/44_passthrough_commands.md R170). -/
def decodeCommand (cfg : Config) (src : Source) (id : Byte) (p : List Byte) : Except DecodeError Instr :=
  match lookupId cfg id with
  | none => .error (.unknownId id)
  | some c => .ok (Instr.ofName c src p)

/-- One streaming frame `[cmd][len][payload]` off the front (spec/30_encoding.md R61, R62): the payload is cut to
`MAX_BUF_LEN` bytes, the frame is consumed whole, the bytes after it are returned. -/
def decodeStreamFrame (cfg : Config) : List Byte → Except DecodeError (Instr × List Byte)
  | [] => .error .noCommandByte
  | [_] => .error .noLengthByte
  | id :: len :: rest =>
    if rest.length < len.toNat then .error .payloadIncomplete
    else match decodeCommand cfg .stream id (rest.take (min len.toNat cfg.maxBufLen)) with
      | .ok i => .ok (i, rest.drop len.toNat)
      | .error e => .error e

/-- One block frame of `BLOCK_LEN` bytes off the front (spec/30_encoding.md R63). -/
def decodeBlockFrame (cfg : Config) (bytes : List Byte) : Except DecodeError (Instr × List Byte) :=
  if bytes.length < cfg.blockLen then .error .frameIncomplete
  else match bytes.take cfg.blockLen with
    | [] => .error .noCommandByte
    | id :: p =>
      match decodeCommand cfg .block id p with
      | .ok i => .ok (i, bytes.drop cfg.blockLen)
      | .error e => .error e

/-- One frame of the given format off the front of `bytes` (spec/30_encoding.md R60). -/
def decode (cfg : Config) (src : Source) (bytes : List Byte) : Except DecodeError (Instr × List Byte) :=
  match src with
  | .stream => decodeStreamFrame cfg bytes
  | .block => decodeBlockFrame cfg bytes

/-- The frame of a well-formed command, in the format of its path (spec/30_encoding.md R61, R63). -/
def encode (cfg : Config) (i : Instr) : List Byte :=
  match i.src with
  | .stream => cfg.cmdIds.id i.name :: BitVec.ofNat 8 i.payload.length :: i.payload
  | .block => cfg.cmdIds.id i.name :: i.payload

/-- The notation `S <Name> len=<n> [...]` (spec/30_encoding.md R74); the declared length is written apart from the
payload bytes, as there. -/
def streamNotation (cfg : Config) (c : CommandName) (len : Byte) (p : List Byte) : List Byte :=
  cfg.cmdIds.id c :: len :: p

/-- The notation `B <Name> [...]` (spec/30_encoding.md R74): payload bytes not written are `0x00`. -/
def blockNotation (cfg : Config) (c : CommandName) (p : List Byte) : List Byte :=
  (cfg.cmdIds.id c :: p) ++ List.replicate (cfg.blockLen - 1 - p.length) 0x00

/-- The first `n` bytes of a table word: bit 0 is the least significant bit of the first byte. -/
def bytesOfWord : Nat → Nat → List Byte
  | 0, _ => []
  | n + 1, w => BitVec.ofNat 8 w :: bytesOfWord n (w / 256)

/-- A table word of `nbits` bits as a block frame of `blockLen` bytes, every bit above `nbits` zero (log 11). -/
def tableFrame (blockLen nbits w : Nat) : List Byte :=
  bytesOfWord blockLen (w % 2 ^ nbits)

/-- The command the decoder reads from a word numbered as spec/opcode_table.json numbers it. The table gives a row the
8 bits of its id under `REF_IDS` (spec/30_encoding.md R75), so the word is laid out as a block frame under `REF`. -/
def decodeTableWord (nbits w : Nat) : Option Instr :=
  match decode .ref .block (tableFrame Config.ref.blockLen nbits w) with
  | .ok (i, _) => some i
  | .error _ => none

end Sys2Proof
end

