-- ==== Sys2Proof/Machine/State.lean ====
section
/-! DEFINITION. The state of the CFD (spec/10_state.md R20), the operations its clients offer (spec/00_scope.md R12),
the reasons a step can stop, and the state after reset (spec/10_state.md R35). -/

namespace Sys2Proof.Machine

/-- A colour: three opaque bytes in payload order, never interpreted (spec/10_state.md R29; spec/30_encoding.md R71). -/
structure Color where
  c1 : Byte
  c2 : Byte
  c3 : Byte
deriving DecidableEq, Repr

/-- One entry of the indicator array: `EN[l][e]` and `COL[l][e]` (spec/10_state.md R29). -/
structure Entry where
  /-- `EN[l][e]`. -/
  enabled : Bool
  /-- `COL[l][e]`. -/
  color : Color
deriving DecidableEq, Repr

/-- The default entry, "disabled, black" (spec/10_state.md R35; spec/70_reset_and_hazards.md R222). It is what an
address that the array's list does not hold reads as. -/
def Entry.initial : Entry := { enabled := false, color := { c1 := 0x00, c2 := 0x00, c3 := 0x00 } }

/-- The CFD's one address space, the indicator array (spec/20_memory.md R40), held sparse: the entries that differ
from `Entry.initial`, each under its address (log 9). -/
abbrev Memory := List (Nat × Entry)

/-- The canonical form: addresses strictly rising, and no entry equal to what an unlisted address reads as. -/
abbrev Memory.wf (m : Memory) : Prop :=
  m.Pairwise (fun x y => x.1 < y.1) ∧ ∀ x ∈ m, x.2 ≠ Entry.initial

/-- The streaming decoder state `dst` (spec/10_state.md R23); `invalid` stands for any unrecognized encoding. -/
inductive DecoderState where
  /-- AwaitingCommand. -/
  | awCmd
  /-- AwaitingLength. -/
  | awLen
  /-- AwaitingPayloadByte(`idx`). -/
  | awPay
  /-- Any unrecognized internal state. -/
  | invalid
deriving DecidableEq, Repr

/-- The streaming decoder registers, "owned exclusively by the Decoder" (spec/10_state.md R20(a), R21). -/
structure StreamRegs where
  /-- `dst` (R23). -/
  dst : DecoderState
  /-- `cmd`, the id of the frame being received (R25). -/
  cmd : Byte
  /-- `len`, its declared payload length (R26). -/
  len : Byte
  /-- `idx`, the running fill index (R27). -/
  idx : Byte
  /-- `buf`, `MAX_BUF_LEN` bytes (R28). -/
  buf : List Byte
deriving DecidableEq, Repr

/-- An event of the decoded-command port `DEC` (spec/10_state.md R31(a)). -/
structure Decoded where
  src : Source
  cmd : Byte
  payload : List Byte
deriving DecidableEq, Repr

/-- An event of the external request port `REQ` (spec/10_state.md R31(b)). -/
inductive Request where
  | hardReset
  | setMode (persist : Bool) (mode : Byte)
  | toggleMatrix (persist : Bool)
  | setMatrixColor (persist : Bool) (c1 c2 c3 : Byte)
  | activateLayer (layer : Byte)
  | setSpeed (persist : Bool) (speed : Byte)
  | setMute (enabled : Bool)
  | endCall
  | echoStream (bytes : List Byte)
  | echoBlock (bytes : List Byte)
  | connect
  | disconnect
deriving DecidableEq, Repr

/-- What the read port returns (spec/42_indicator_array.md R135, R136). -/
inductive ReadResult where
  /-- Of `read_entry`: `Some(EN, COL)` or `None`. -/
  | entry (r : Option Entry)
  /-- Of `colors_for_layer`: the enabled LEDs of the layer with their colours. -/
  | colors (r : List (Byte × Color))
deriving DecidableEq, Repr

/-- An input-port operation, the handling of which is one step (spec/00_scope.md R12). -/
inductive PortOp where
  /-- One byte on the stream port (spec/40_stream_decoder.md R100). -/
  | streamByte (b : Byte)
  /-- One frame on the block port (spec/41_block_decoder.md R120). -/
  | blockFrame (f : List Byte)
  /-- `set_color` (spec/42_indicator_array.md R131). -/
  | setColor (l e : Byte) (c : Color)
  /-- `set_enabled` (R132). -/
  | setEnabled (l e : Byte) (v : Bool)
  /-- `toggle_enabled` (R133). -/
  | toggleEnabled (l e : Byte)
  /-- `set_underglow_pair` (R134). -/
  | setUnderglowPair (l : Byte) (c : Color)
  /-- `read_entry` (R135). -/
  | readEntry (l e : Byte)
  /-- `colors_for_layer` (R136). -/
  | colorsForLayer (l : Byte)
  /-- The reset input (spec/70_reset_and_hazards.md R220). -/
  | reset
deriving DecidableEq, Repr

/-- The state: what spec/10_state.md R20 gives the CFD, and three fields of the model's own, `cfg`, `inputs` and
`readTrace` (logs 1, 3, 5). -/
structure State where
  /-- The configuration record (spec/00_scope.md R7). The model's own field: no step changes it (log 1). -/
  cfg : Config
  /-- The streaming decoder registers (spec/10_state.md R20(a)). -/
  rx : StreamRegs
  /-- The indicator array (spec/10_state.md R20(b)). -/
  array : Memory
  /-- `DEC`, oldest event first (spec/10_state.md R31(a)). -/
  decTrace : List Decoded
  /-- `REQ`, oldest event first (spec/10_state.md R31(b)). -/
  reqTrace : List Request
  /-- What the read port returned, oldest first. The model's own field (log 5). -/
  readTrace : List ReadResult
  /-- The operations the clients offer from here on, next first. The model's own field (log 3). -/
  inputs : List PortOp
deriving DecidableEq, Repr

/-- Why a step stops with a fault: never. "A model has no fault outcome for any input" (spec/60_exceptions.md R200), so
the type has no constructor (log 12). -/
inductive Fault where
deriving DecidableEq, Repr

/-- Why a step is refused. -/
inductive Refusal where
  /-- Raised by an arm of `exec` for a command without a meaning; no arm raises it. Safe: nothing is claimed. -/
  | notModelled (mnemonic : String)
  /-- Raised by `step` when the configuration record breaks a constraint of spec/00_scope.md R6: R7 asks the model to
  refuse it (log 2). Safe: no claim about such a record can be proved from a run. -/
  | invalidConfig
  /-- Raised by the block port for a frame that has not exactly `BLOCK_LEN` bytes, which is no operation of the port
  (spec/41_block_decoder.md R120; spec/60_exceptions.md R214, log 10). Safe: the model stops. -/
  | blockFrameLength
deriving DecidableEq, Repr

/-- The decoder registers after reset (spec/10_state.md R35; spec/70_reset_and_hazards.md R221). The bytes of `buf` are
unspecified there: `0x00` is a DESIGN CHOICE (log 7), and no rule reads them. -/
def StreamRegs.atReset (cfg : Config) : StreamRegs where
  dst := .awCmd
  cmd := 0x00
  len := 0x00
  idx := 0x00
  buf := List.replicate cfg.maxBufLen 0x00

/-- The state right after reset of a CFD configured with `cfg` and offered nothing (spec/10_state.md R35). -/
def State.resetFor (cfg : Config) : State where
  cfg := cfg
  rx := .atReset cfg
  array := []
  decTrace := []
  reqTrace := []
  readTrace := []
  inputs := []

/-- The machine right after reset, under the reference configuration (spec/00_scope.md R7; log 1). -/
def State.reset : State := State.resetFor .ref

end Sys2Proof.Machine
end

