-- ==== Sys2Proof/Machine/Ops.lean ====
section
/-! DEFINITION. The named operations over the state: the indicator array's read and write, its ports
(spec/42_indicator_array.md), the two output traces (spec/10_state.md R31), the streaming decoder's registers
(spec/40_stream_decoder.md) and the reset step (spec/70_reset_and_hazards.md R220).
There is no operation that takes an exception: the CFD has none (spec/60_exceptions.md R200, R209). -/

namespace Sys2Proof.Machine

/-! ## The array as a list -/

/-- The entry at an address; an unlisted address reads as the reset contents (spec/70_reset_and_hazards.md R222). -/
def Memory.read : Memory → Nat → Entry
  | [], _ => Entry.initial
  | (k, v) :: rest, a => if a = k then v else Memory.read rest a

/-- Remove the entry at an address. -/
def Memory.erase (m : Memory) (a : Nat) : Memory := m.filter fun x => decide (x.1 ≠ a)

/-- Put an entry before the first one of a higher address. -/
def Memory.insert (a : Nat) (v : Entry) : Memory → Memory
  | [] => [(a, v)]
  | x :: rest => if a < x.1 then (a, v) :: x :: rest else x :: Memory.insert a v rest

/-- Write the entry at an address, keeping the canonical form: an entry equal to the reset contents is not listed. -/
def Memory.write (m : Memory) (a : Nat) (v : Entry) : Memory :=
  if v = Entry.initial then m.erase a else (m.erase a).insert a v

/-- The list's key for entry `(l, e)`: one number for each pair of bytes (spec/20_memory.md R41; log 9). -/
def address (l e : Byte) : Nat := l.toNat * 256 + e.toNat

/-- `valid(l, e)` (spec/00_scope.md R10; spec/20_memory.md R41). -/
def Config.valid (cfg : Config) (l e : Byte) : Bool :=
  decide (l.toNat < cfg.maxLayers) && decide (e.toNat < cfg.maxLeds)

/-- The entry `(EN[l][e], COL[l][e])` (spec/00_scope.md R10). -/
def State.entryAt (s : State) (l e : Byte) : Entry := s.array.read (address l e)

/-- Replace entry `(l, e)` by `f` of it, if the address is valid; else change nothing (spec/20_memory.md R42). -/
def Memory.update (cfg : Config) (m : Memory) (l e : Byte) (f : Entry → Entry) : Memory :=
  if Config.valid cfg l e then m.write (address l e) (f (m.read (address l e))) else m

/-- Replace an entry of the state's array. -/
def State.updateEntry (s : State) (l e : Byte) (f : Entry → Entry) : State :=
  { s with array := s.array.update s.cfg l e f }

/-! ## The array's ports -/

/-- `set_color(l, e, c)` (spec/42_indicator_array.md R131). -/
def State.setColor (s : State) (l e : Byte) (c : Color) : State :=
  s.updateEntry l e fun x => { x with color := c }

/-- `set_enabled(l, e, v)` (spec/42_indicator_array.md R132). -/
def State.setEnabled (s : State) (l e : Byte) (v : Bool) : State :=
  s.updateEntry l e fun x => { x with enabled := v }

/-- `toggle_enabled(l, e)` (spec/42_indicator_array.md R133). -/
def State.toggleEnabled (s : State) (l e : Byte) : State :=
  s.updateEntry l e fun x => { x with enabled := !x.enabled }

/-- `set_underglow_pair(l, c)`: each LED of the pair checked on its own (spec/42_indicator_array.md R134). -/
def State.setUnderglowPair (s : State) (l : Byte) (c : Color) : State :=
  (s.updateEntry l s.cfg.ugLeft fun _ => { enabled := true, color := c }).updateEntry l s.cfg.ugRight
    fun _ => { enabled := true, color := c }

/-- The value `read_entry(l, e)` returns (spec/42_indicator_array.md R135). -/
def State.readEntry (s : State) (l e : Byte) : Option Entry :=
  if Config.valid s.cfg l e then some (s.entryAt l e) else none

/-- The list `colors_for_layer(l)` returns: the enabled entries of the layer in LED-index order
(spec/42_indicator_array.md R136). -/
def State.colorsForLayer (s : State) (l : Byte) : List (Byte × Color) :=
  if l.toNat < s.cfg.maxLayers then
    (List.range s.cfg.maxLeds).filterMap fun n =>
      let e := BitVec.ofNat 8 n
      if (s.entryAt l e).enabled then some (e, (s.entryAt l e).color) else none
  else []

/-! ## Output traces -/

/-- `Emit(DEC, e)` (spec/00_scope.md R11). -/
def State.emitDec (s : State) (e : Decoded) : State := { s with decTrace := s.decTrace ++ [e] }

/-- `Emit(REQ, e)` (spec/00_scope.md R11). -/
def State.emitReq (s : State) (e : Request) : State := { s with reqTrace := s.reqTrace ++ [e] }

/-- Hand a read's value to its client (log 5). -/
def State.returnRead (s : State) (r : ReadResult) : State := { s with readTrace := s.readTrace ++ [r] }

/-! ## The streaming decoder's registers -/

/-- The spec's 2-bit encoding of `dst` (spec/10_state.md R23). -/
def DecoderState.bits : DecoderState → BitVec 2
  | .awCmd => 0b00
  | .awLen => 0b01
  | .awPay => 0b10
  | .invalid => 0b11

/-- The state a 2-bit encoding stands for (spec/10_state.md R23). -/
def DecoderState.ofBits (b : BitVec 2) : DecoderState :=
  if b = 0b00 then .awCmd else if b = 0b01 then .awLen else if b = 0b10 then .awPay else .invalid

/-- Write the decoder registers. -/
def State.withRx (s : State) (rx : StreamRegs) : State := { s with rx := rx }

/-- AwaitingCommand takes `b` as the command id and empties the buffer (spec/40_stream_decoder.md R101). "Empty" means
that no byte is valid (spec/10_state.md R28): the bytes themselves stay (log 7). -/
def StreamRegs.takeCommand (rx : StreamRegs) (b : Byte) : StreamRegs :=
  { rx with cmd := b, idx := 0x00, dst := .awLen }

/-- AwaitingLength takes `b` as the declared length; the frame of length zero is complete at once
(spec/40_stream_decoder.md R102, R103). -/
def StreamRegs.takeLength (rx : StreamRegs) (b : Byte) : StreamRegs :=
  { rx with len := b, dst := if b = 0x00 then .awCmd else .awPay }

/-- AwaitingPayloadByte stores `b` if the fill index is within the capacity, and counts it in any case
(spec/40_stream_decoder.md R104). -/
def StreamRegs.storePayload (rx : StreamRegs) (capacity : Nat) (b : Byte) : StreamRegs :=
  { rx with
    buf := if rx.idx.toNat < capacity then rx.buf.set rx.idx.toNat b else rx.buf
    idx := rx.idx + 0x01 }

/-- AwaitingPayloadByte: store, then test the incremented index (spec/40_stream_decoder.md R104, R105). -/
def StreamRegs.takePayload (rx : StreamRegs) (capacity : Nat) (b : Byte) : StreamRegs :=
  let r := rx.storePayload capacity b
  { r with dst := if r.idx = r.len then .awCmd else .awPay }

/-- The payload of a complete frame: `buf[0 .. min(len, MAX_BUF_LEN))` (spec/40_stream_decoder.md R105, R107). -/
def StreamRegs.delivered (rx : StreamRegs) (capacity : Nat) : List Byte :=
  rx.buf.take (min rx.len.toNat capacity)

/-- The recovery from an unrecognized state; the byte is discarded (spec/40_stream_decoder.md R106). -/
def StreamRegs.recover (rx : StreamRegs) : StreamRegs := { rx with dst := .awCmd, idx := 0x00 }

/-! ## Reset -/

/-- The reset step: every piece of the CFD's state at its value of spec/10_state.md R35 (spec/70_reset_and_hazards.md
R220). The configuration stays, and so do the operations that the clients offer after the reset (log 6). -/
def State.resetStep (s : State) : State := { State.resetFor s.cfg with inputs := s.inputs }

end Sys2Proof.Machine
end

