-- ==== Sys2Proof/Machine/Flags.lean ====
section
/-! DEFINITION. Flags. The CFD has no status flag and no condition code (spec/10_state.md R24), so no command computes
one. What the source calls a flag is a boolean byte of a payload (spec/30_encoding.md R70); its reading is here. -/

namespace Sys2Proof.Machine

/-- `bool(b)`: true for every non-zero byte (spec/00_scope.md R8; spec/30_encoding.md R70, decision D8). -/
def boolOf (b : Byte) : Bool := b != 0x00

end Sys2Proof.Machine
end

