-- ==== Sys2Proof/Machine/Operands.lean ====
section
/-! DEFINITION. The operands of the commands: the payload layouts and how fields are read from a delivered payload
(spec/30_encoding.md R66 to R71; spec/43_indicator_commands.md R150). -/

namespace Sys2Proof.Machine

/-- `need(c)`: how many payload bytes the layout uses (spec/30_encoding.md R66). -/
def need (v : Variant) : CommandName → Nat
  | .reset => 4
  | .setMode => 2
  | .toggleMatrix => 1
  | .setMatrixColor => 4
  | .toggleIndicator => match v with | .layered => 2 | .singleLayer => 1
  | .setIndicatorColor => match v with | .layered => 5 | .singleLayer => 4
  | .enableIndicator => match v with | .layered => 2 | .singleLayer => 1
  | .disableIndicator => match v with | .layered => 2 | .singleLayer => 1
  | .activateLayer => 1
  | .setSpeed => 2
  | .setMuteStatus => 1
  | .endCall => 0
  | .echo => 0
  | .connect => 0
  | .disconnect => 0

/-- `p` is short for the command (spec/30_encoding.md R68). -/
def short (v : Variant) (c : CommandName) (p : List Byte) : Bool := decide (p.length < need v c)

/-- The command does nothing because its payload is short and `SHORT_PAYLOAD` is `Ignore` (spec/30_encoding.md R68;
spec/44_passthrough_commands.md R172). -/
def skipped (cfg : Config) (c : CommandName) (p : List Byte) : Bool :=
  short cfg.variant c p && decide (cfg.shortPayload = .ignore)

/-- The field at payload offset `k`, the raw byte (spec/30_encoding.md R67); a missing byte reads `0x00`, which
matters under `ZeroFill` only (R68). -/
def field (p : List Byte) (k : Nat) : Byte := p.getD k 0x00

/-- The target layer of an indicator command (spec/43_indicator_commands.md R150). -/
def layerField (v : Variant) (p : List Byte) : Byte :=
  match v with
  | .layered => field p 0
  | .singleLayer => 0x00

/-- The target LED of an indicator command (spec/43_indicator_commands.md R150). -/
def ledField (v : Variant) (p : List Byte) : Byte :=
  match v with
  | .layered => field p 1
  | .singleLayer => field p 0

/-- The colour of SetIndicatorColor (spec/43_indicator_commands.md R150). -/
def colorField (v : Variant) (p : List Byte) : Color :=
  match v with
  | .layered => { c1 := field p 2, c2 := field p 3, c3 := field p 4 }
  | .singleLayer => { c1 := field p 1, c2 := field p 2, c3 := field p 3 }

/-- `MAGIC`, the Reset authorisation bytes, the source's unaudited value (spec/44_passthrough_commands.md R173;
log 13). -/
def magic : List Byte := [0xDE, 0xAD, 0xF0, 0x00]

/-- At least four bytes were delivered and the first four are `MAGIC` (spec/44_passthrough_commands.md R173). -/
def magicMatches (p : List Byte) : Bool := decide (p.take 4 = magic)

end Sys2Proof.Machine
end

