-- ==== Sys2Proof/Machine/Indicator.lean ====
section
/-! DEFINITION. The four indicator commands (spec/43_indicator_commands.md). None emits a `REQ` event. -/

namespace Sys2Proof.Machine

/-- ToggleIndicator (spec/43_indicator_commands.md R151). -/
def execToggleIndicator (p : List Byte) (s : State) : Host.Outcome State Fault Refusal :=
  .next <| if skipped s.cfg .toggleIndicator p then s
    else s.toggleEnabled (layerField s.cfg.variant p) (ledField s.cfg.variant p)

/-- SetIndicatorColor (spec/43_indicator_commands.md R152). -/
def execSetIndicatorColor (p : List Byte) (s : State) : Host.Outcome State Fault Refusal :=
  .next <| if skipped s.cfg .setIndicatorColor p then s
    else s.setColor (layerField s.cfg.variant p) (ledField s.cfg.variant p) (colorField s.cfg.variant p)

/-- EnableIndicator (spec/43_indicator_commands.md R153). -/
def execEnableIndicator (p : List Byte) (s : State) : Host.Outcome State Fault Refusal :=
  .next <| if skipped s.cfg .enableIndicator p then s
    else s.setEnabled (layerField s.cfg.variant p) (ledField s.cfg.variant p) true

/-- DisableIndicator (spec/43_indicator_commands.md R154). -/
def execDisableIndicator (p : List Byte) (s : State) : Host.Outcome State Fault Refusal :=
  .next <| if skipped s.cfg .disableIndicator p then s
    else s.setEnabled (layerField s.cfg.variant p) (ledField s.cfg.variant p) false

end Sys2Proof.Machine
end

