-- ==== Sys2Proof/Machine/Passthrough.lean ====
section
/-! DEFINITION. The eleven pass-through commands, each at most one request on `REQ`
(spec/44_passthrough_commands.md R172 to R183). The indicator array is not touched. -/

namespace Sys2Proof.Machine

/-- Emit a request unless the payload is short and ignored (spec/44_passthrough_commands.md R172). -/
def State.request (s : State) (c : CommandName) (p : List Byte) (r : Request) : State :=
  if skipped s.cfg c p then s else s.emitReq r

/-- Reset: the request only, the CFD's own state is not reset (spec/44_passthrough_commands.md R173;
spec/70_reset_and_hazards.md R224). -/
def execReset (p : List Byte) (s : State) : Host.Outcome State Fault Refusal :=
  .next <| if magicMatches p then s.emitReq .hardReset else s

/-- SetMode (spec/44_passthrough_commands.md R174). -/
def execSetMode (p : List Byte) (s : State) : Host.Outcome State Fault Refusal :=
  .next <| s.request .setMode p (.setMode (boolOf (field p 0)) (field p 1))

/-- ToggleMatrix (spec/44_passthrough_commands.md R175). -/
def execToggleMatrix (p : List Byte) (s : State) : Host.Outcome State Fault Refusal :=
  .next <| s.request .toggleMatrix p (.toggleMatrix (boolOf (field p 0)))

/-- SetMatrixColor (spec/44_passthrough_commands.md R176). -/
def execSetMatrixColor (p : List Byte) (s : State) : Host.Outcome State Fault Refusal :=
  .next <| s.request .setMatrixColor p (.setMatrixColor (boolOf (field p 0)) (field p 1) (field p 2) (field p 3))

/-- ActivateLayer, not checked against `MAX_LAYERS` (spec/44_passthrough_commands.md R177). -/
def execActivateLayer (p : List Byte) (s : State) : Host.Outcome State Fault Refusal :=
  .next <| s.request .activateLayer p (.activateLayer (field p 0))

/-- SetSpeed (spec/44_passthrough_commands.md R178). -/
def execSetSpeed (p : List Byte) (s : State) : Host.Outcome State Fault Refusal :=
  .next <| s.request .setSpeed p (.setSpeed (boolOf (field p 0)) (field p 1))

/-- SetMuteStatus (spec/44_passthrough_commands.md R179). -/
def execSetMuteStatus (p : List Byte) (s : State) : Host.Outcome State Fault Refusal :=
  .next <| s.request .setMuteStatus p (.setMute (boolOf (field p 0)))

/-- EndCall, every time (spec/44_passthrough_commands.md R180). -/
def execEndCall (s : State) : Host.Outcome State Fault Refusal :=
  .next <| s.emitReq .endCall

/-- Echo: the delivered payload by the stream, the whole frame by the block path (spec/44_passthrough_commands.md
R181). -/
def execEcho (src : Source) (p : List Byte) (s : State) : Host.Outcome State Fault Refusal :=
  match src with
  | .stream => .next <| s.emitReq (.echoStream p)
  | .block => .next <| s.emitReq (.echoBlock (s.cfg.cmdIds.id .echo :: p))

/-- Connect, every time (spec/44_passthrough_commands.md R182). -/
def execConnect (s : State) : Host.Outcome State Fault Refusal :=
  .next <| s.emitReq .connect

/-- Disconnect, every time (spec/44_passthrough_commands.md R183). -/
def execDisconnect (s : State) : Host.Outcome State Fault Refusal :=
  .next <| s.emitReq .disconnect

end Sys2Proof.Machine
end

