-- ==== Sys2Proof/Machine/Dispatch.lean ====
section
/-! DEFINITION. The meaning of each command, by name (spec/44_passthrough_commands.md R170). -/

namespace Sys2Proof.Machine

-- Perform the rule of the command; its DEC event is Machine/CommandUnit.lean's.
def exec (i : Instr) (s : State) : Host.Outcome State Fault Refusal :=
  match i with
  | .reset _ p => Sys2Proof.Machine.execReset p s
  | .setMode _ p => Sys2Proof.Machine.execSetMode p s
  | .toggleMatrix _ p => Sys2Proof.Machine.execToggleMatrix p s
  | .setMatrixColor _ p => Sys2Proof.Machine.execSetMatrixColor p s
  | .toggleIndicator _ p => Sys2Proof.Machine.execToggleIndicator p s
  | .setIndicatorColor _ p => Sys2Proof.Machine.execSetIndicatorColor p s
  | .enableIndicator _ p => Sys2Proof.Machine.execEnableIndicator p s
  | .disableIndicator _ p => Sys2Proof.Machine.execDisableIndicator p s
  | .activateLayer _ p => Sys2Proof.Machine.execActivateLayer p s
  | .setSpeed _ p => Sys2Proof.Machine.execSetSpeed p s
  | .setMuteStatus _ p => Sys2Proof.Machine.execSetMuteStatus p s
  | .endCall _ _ => Sys2Proof.Machine.execEndCall s
  | .echo src p => Sys2Proof.Machine.execEcho src p s
  | .connect _ _ => Sys2Proof.Machine.execConnect s
  | .disconnect _ _ => Sys2Proof.Machine.execDisconnect s

end Sys2Proof.Machine
end

