-- ==== Sys2Proof/Machine/CommandUnit.lean ====
section
/-! DEFINITION. The command unit: `Dispatch(src, cmd, p)` (spec/44_passthrough_commands.md R170, R171, R184). -/

namespace Sys2Proof.Machine

/-- Record the command on `DEC`, then perform its rule; an unknown id has no other effect
(spec/44_passthrough_commands.md R170, R171). -/
def dispatch (src : Source) (id : Byte) (p : List Byte) (s : State) : Host.Outcome State Fault Refusal :=
  match decodeCommand s.cfg src id p with
  | .ok i => exec i (s.emitDec { src := src, cmd := id, payload := p })
  | .error _ => .next (s.emitDec { src := src, cmd := id, payload := p })

end Sys2Proof.Machine
end

