-- ==== Sys2Proof/Machine/BlockDecoder.lean ====
section
/-! DEFINITION. The block-mode decoder (spec/41_block_decoder.md). -/

namespace Sys2Proof.Machine

/-- One frame on the block port: `Dispatch(Block, f[0], f[1 .. N))` (spec/41_block_decoder.md R120). A frame of another
length than `BLOCK_LEN` is no operation of the port and is refused by name (log 10). -/
def blockStep (f : List Byte) (s : State) : Host.Outcome State Fault Refusal :=
  match f with
  | [] => .refused .blockFrameLength
  | id :: p => if p.length + 1 = s.cfg.blockLen then dispatch .block id p s else .refused .blockFrameLength

end Sys2Proof.Machine
end

