-- ==== Sys2Proof/Machine/StreamDecoder.lean ====
section
/-! DEFINITION. The streaming decoder (spec/40_stream_decoder.md). -/

namespace Sys2Proof.Machine

/-- One byte on the stream port (spec/40_stream_decoder.md R100): R101, R102 or R103, R104 with R105, or R106, by
`dst`. The registers are written and the completed command is dispatched in the same step (R110). -/
def streamStep (b : Byte) (s : State) : Host.Outcome State Fault Refusal :=
  match s.rx.dst with
  | .awCmd => .next (s.withRx (s.rx.takeCommand b))
  | .awLen =>
    if b = 0x00 then dispatch .stream s.rx.cmd [] (s.withRx (s.rx.takeLength b))
    else .next (s.withRx (s.rx.takeLength b))
  | .awPay =>
    let rx := s.rx.takePayload s.cfg.maxBufLen b
    if rx.idx = rx.len then dispatch .stream rx.cmd (rx.delivered s.cfg.maxBufLen) (s.withRx rx)
    else .next (s.withRx rx)
  | .invalid => .next (s.withRx s.rx.recover)

end Sys2Proof.Machine
end

