-- ==== Sys2Proof/Machine/Ports.lean ====
section
/-! DEFINITION. The input ports: what one operation of a client does (spec/00_scope.md R12; spec/60_exceptions.md
R214). -/

namespace Sys2Proof.Machine

/-- Perform one input-port operation, completely (spec/20_memory.md R47). -/
def perform (op : PortOp) (s : State) : Host.Outcome State Fault Refusal :=
  match op with
  | .streamByte b => streamStep b s
  | .blockFrame f => blockStep f s
  | .setColor l e c => .next (s.setColor l e c)
  | .setEnabled l e v => .next (s.setEnabled l e v)
  | .toggleEnabled l e => .next (s.toggleEnabled l e)
  | .setUnderglowPair l c => .next (s.setUnderglowPair l c)
  | .readEntry l e => .next (s.returnRead (.entry (s.readEntry l e)))
  | .colorsForLayer l => .next (s.returnRead (.colors (s.colorsForLayer l)))
  | .reset => .next s.resetStep

/-- Take the next operation offered and perform it; with none offered the CFD waits: "the CFD never makes progress on
its own" (spec/60_exceptions.md R214; spec/70_reset_and_hazards.md R220; log 4). -/
def nextOperation (s : State) : Host.Outcome State Fault Refusal :=
  match s.inputs with
  | [] => .next s
  | op :: rest => perform op { s with inputs := rest }

/-- The block frame of a table word, offered before everything else (log 11). -/
def offerTableWord (s : State) (nbits w : Nat) : State :=
  { s with inputs := .blockFrame (tableFrame s.cfg.blockLen nbits w) :: s.inputs }

end Sys2Proof.Machine
end

