-- ==== Sys2Proof/Machine/Step.lean ====
section
/-! DEFINITION. One step of the machine (spec/00_scope.md R12), under a valid configuration record (R7). -/

namespace Sys2Proof.Machine

/-- One step: the next input-port operation. A configuration record that breaks a constraint of spec/00_scope.md R6 is
refused (R7; log 2). -/
def step (s : State) : Host.Outcome State Fault Refusal :=
  if s.cfg.wf then nextOperation s else .refused .invalidConfig

/-- `s` with the command of a table word offered as the next operation, as a block frame whose bytes above `nbits` are
zero: a block frame is decoded and dispatched whole in one step (spec/41_block_decoder.md R120; log 11). -/
def State.withFetchWord (s : State) (nbits w : Nat) : State := offerTableWord s nbits w

end Sys2Proof.Machine
end

