-- ==== Sys2Proof/Safety.lean ====
section
/-! DEFINITION. What claims about the CFD are stated in: the invariant of its states, admissible offers of its clients,
runs, what `DEC` says about `REQ`, and when two states differ in unobservable buffer bytes only. -/

namespace Sys2Proof.Safety

open Sys2Proof.Machine

/-- The decoder registers are as a run from reset leaves them (spec/10_state.md R23, R27, R28). -/
def RxOk (cfg : Config) (rx : StreamRegs) : Prop :=
  rx.buf.length = cfg.maxBufLen ∧ rx.dst ≠ .invalid ∧ (rx.dst = .awLen → rx.idx = 0x00) ∧
    (rx.dst = .awPay → rx.idx.toNat < rx.len.toNat)

/-- The array's list is canonical and holds no entry outside `[0, MAX_LAYERS) × [0, MAX_LEDS)`: the array "never
resizes" (spec/10_state.md R29; spec/20_memory.md R42, R44). -/
def ArrayOk (cfg : Config) (m : Memory) : Prop :=
  m.wf ∧ ∀ x ∈ m, x.1 / 256 < cfg.maxLayers ∧ x.1 % 256 < cfg.maxLeds

/-- The payload of a decoded command is as long as its path can deliver (spec/40_stream_decoder.md R107;
spec/41_block_decoder.md R120). -/
def DecodedOk (cfg : Config) (d : Decoded) : Prop :=
  match d.src with
  | .stream => d.payload.length ≤ cfg.maxBufLen
  | .block => d.payload.length + 1 = cfg.blockLen

/-- At most one request for each decoded command (spec/44_passthrough_commands.md R184). -/
def TracesOk (cfg : Config) (dec : List Decoded) (req : List Request) : Prop :=
  (∀ d ∈ dec, DecodedOk cfg d) ∧ req.length ≤ dec.length

/-- The invariant of the states that a run from reset can reach. -/
def Inv (s : State) : Prop :=
  s.cfg.wf = true ∧ RxOk s.cfg s.rx ∧ ArrayOk s.cfg s.array ∧ TracesOk s.cfg s.decTrace s.reqTrace

/-- An operation that its port can take: a block frame has `BLOCK_LEN` bytes (spec/60_exceptions.md R214). -/
def PortOpOk (cfg : Config) (op : PortOp) : Prop :=
  match op with
  | .blockFrame f => f.length = cfg.blockLen
  | _ => True

/-- `n` steps, up to the first refusal. -/
def runSteps : Nat → State → Host.Outcome State Fault Refusal
  | 0, s => .next s
  | n + 1, s =>
    match step s with
    | .next t => runSteps n t
    | .fault r => .fault r
    | .refused r => .refused r

/-- A streaming frame with command id `f.1` and payload bytes `f.2`, as operations of the stream port
(spec/30_encoding.md R61). -/
def streamOps (f : Byte × List Byte) : List PortOp :=
  (f.1 :: BitVec.ofNat 8 f.2.length :: f.2).map .streamByte

/-- What a streaming frame is recorded as on `DEC` (spec/40_stream_decoder.md R107). -/
def streamEvent (cfg : Config) (f : Byte × List Byte) : Decoded :=
  { src := .stream, cmd := f.1, payload := f.2.take cfg.maxBufLen }

/-- A payload shorter than `n` bytes asks for nothing under `Ignore` (spec/44_passthrough_commands.md R172). -/
def unlessShort (cfg : Config) (p : List Byte) (n : Nat) (r : Request) : Option Request :=
  if n ≤ p.length ∨ cfg.shortPayload = .zeroFill then some r else none

/-- The request that command `c`, decoded as `d`, asks for, written from the table of spec/44_passthrough_commands.md
R173 to R183 alone; a missing byte reads `0x00`. -/
def requestOfCommand (cfg : Config) (c : CommandName) (d : Decoded) : Option Request :=
  match c with
  | .reset => if d.payload.take 4 = [0xDE, 0xAD, 0xF0, 0x00] then some .hardReset else none
  | .setMode => unlessShort cfg d.payload 2 (.setMode (d.payload.getD 0 0x00 != 0x00) (d.payload.getD 1 0x00))
  | .toggleMatrix => unlessShort cfg d.payload 1 (.toggleMatrix (d.payload.getD 0 0x00 != 0x00))
  | .setMatrixColor => unlessShort cfg d.payload 4 (.setMatrixColor (d.payload.getD 0 0x00 != 0x00)
      (d.payload.getD 1 0x00) (d.payload.getD 2 0x00) (d.payload.getD 3 0x00))
  | .toggleIndicator => none
  | .setIndicatorColor => none
  | .enableIndicator => none
  | .disableIndicator => none
  | .activateLayer => unlessShort cfg d.payload 1 (.activateLayer (d.payload.getD 0 0x00))
  | .setSpeed => unlessShort cfg d.payload 2 (.setSpeed (d.payload.getD 0 0x00 != 0x00) (d.payload.getD 1 0x00))
  | .setMuteStatus => unlessShort cfg d.payload 1 (.setMute (d.payload.getD 0 0x00 != 0x00))
  | .endCall => some .endCall
  | .echo => match d.src with
    | .stream => some (.echoStream d.payload)
    | .block => some (.echoBlock (d.cmd :: d.payload))
  | .connect => some .connect
  | .disconnect => some .disconnect

/-- The request that a decoded command asks for: none for an unknown id (spec/44_passthrough_commands.md R171). -/
def requestOf (cfg : Config) (d : Decoded) : Option Request :=
  match lookupId cfg d.cmd with
  | none => none
  | some c => requestOfCommand cfg c d

/-- `s` and `t` agree in everything but buffer bytes that no rule reads: while a frame is being received, the valid
bytes `buf[0 .. min(idx, MAX_BUF_LEN))` agree (spec/10_state.md R28). -/
def SameUpToStale (s t : State) : Prop :=
  t = { s with rx := { s.rx with buf := t.rx.buf } } ∧ t.rx.buf.length = s.rx.buf.length ∧
    (s.rx.dst = .awLen ∨ s.rx.dst = .awPay →
      t.rx.buf.take (min s.rx.idx.toNat s.cfg.maxBufLen) = s.rx.buf.take (min s.rx.idx.toNat s.cfg.maxBufLen))

/-- Two outcomes of a step that agree up to unobservable buffer bytes. -/
def SameOutcome (x y : Host.Outcome State Fault Refusal) : Prop :=
  match x, y with
  | .next s, .next t => SameUpToStale s t
  | .refused r, .refused q => r = q
  | _, _ => False

/-- The outcome `o` is what `Dispatch(src, id, p)` makes of `s` (spec/44_passthrough_commands.md R170, R171): one `DEC`
event, then the rule of the command whose id it is, or nothing more for an unknown id. -/
def Dispatches (o : Host.Outcome State Fault Refusal) (src : Source) (id : Byte) (p : List Byte) (s : State) : Prop :=
  let recorded := { s with decTrace := s.decTrace ++ [{ src := src, cmd := id, payload := p }] }
  (∀ c, s.cfg.cmdIds.id c = id → o = exec (Instr.ofName c src p) recorded) ∧
    ((∀ c, s.cfg.cmdIds.id c ≠ id) → o = .next recorded)

/-- `t` is `s` with entry `(l, e)` of the array replaced by `x` if the address is valid, and otherwise `s`; every
address of the array but that entry's reads as before (spec/10_state.md R30; spec/20_memory.md R42). -/
def EntryWritten (s t : State) (l e : Byte) (x : Entry) : Prop :=
  t = { s with array := t.array } ∧ (Config.valid s.cfg l e = false → t = s) ∧
    ∀ a, t.array.read a = if Config.valid s.cfg l e = true ∧ a = address l e then x else s.array.read a

/-- The four commands that act on the indicator array; the other eleven leave it alone
(spec/43_indicator_commands.md R151 to R154; spec/44_passthrough_commands.md R170). -/
def indicatorCommands : List CommandName :=
  [.toggleIndicator, .setIndicatorColor, .enableIndicator, .disableIndicator]

/-- The entry that a single-entry write of the array's port addresses (spec/42_indicator_array.md R131 to R133). -/
def writtenEntry : PortOp → Option (Byte × Byte)
  | .setColor l e _ => some (l, e)
  | .setEnabled l e _ => some (l, e)
  | .toggleEnabled l e => some (l, e)
  | _ => none

/-- Command `c` is encoded by its `CMD_ID` and nothing else: under every valid configuration that id, with any payload
and by either path, is the command; `ref` is its id under `REF_IDS` (spec/30_encoding.md R64, R65). -/
def EncodedAs (c : CommandName) (ref : Byte) : Prop :=
  CmdIds.ref.id c = ref ∧ ∀ (cfg : Config) (src : Source) (p : List Byte), cfg.wf = true →
    decodeCommand cfg src (cfg.cmdIds.id c) p = .ok (Instr.ofName c src p)

end Sys2Proof.Safety
end

