-- ==== Sys2Proof/Certificates/Slice0/Obligations.lean ====
section
/-! DEFINITION. The statements for the provers, in the order of OBLIGATIONS.json. A statement's docstring says which rule
of spec/ it formalises and names every decision of the spec's own (D<n>) or of the model's (log <n>) it rests on. -/

open Sys2Proof Sys2Proof.Machine

/-- Under REF, the 8-bit table words 0x01, 0x06, 0x0D and 0x0F decode to Reset, SetIndicatorColor, Echo and
Disconnect block frames with an all-zero payload, 0x00 and 0x10 decode to nothing, and the streaming bytes 05 02
01 03 are ToggleIndicator [1, 3] with no byte left. The table gives a row the 8 bits of its id only (R75): that
such a word is read as a block frame whose other bytes are zero is the model's own choice, log 11 (DESIGN
CHOICE). The block layout is R63's, the streaming bytes are R61's and R74's (notation: the spec's decision D23),
the ids are REF_IDS, the spec's decision D1. (30_encoding.md R61, 30_encoding.md R63, 30_encoding.md R74,
30_encoding.md R75, 92_eei_decisions.md D1, D23.) -/
def Obligations.TableWordsDecode : Prop :=
  decodeTableWord 8 0x01 = some (.reset .block [0, 0, 0, 0, 0, 0, 0]) ∧
    decodeTableWord 8 0x06 = some (.setIndicatorColor .block [0, 0, 0, 0, 0, 0, 0]) ∧
    decodeTableWord 8 0x0D = some (.echo .block [0, 0, 0, 0, 0, 0, 0]) ∧
    decodeTableWord 8 0x0F = some (.disconnect .block [0, 0, 0, 0, 0, 0, 0]) ∧
    decodeTableWord 8 0x00 = none ∧ decodeTableWord 8 0x10 = none ∧
    decode .ref .stream [0x05, 0x02, 0x01, 0x03] = .ok (.toggleIndicator .stream [1, 3], [])

/-- need(c) has the values of R66's table in both variants, in listing order. Under Layered the layer, LED and
colour of an indicator payload are p[0], p[1] and (p[2], p[3], p[4]); under SingleLayer they are 0, p[0] and
(p[1], p[2], p[3]). The layer 0 of SingleLayer is the spec's own decision D4. (30_encoding.md R66,
43_indicator_commands.md R150, 92_eei_decisions.md D4.) -/
def Obligations.PayloadLayouts : Prop :=
  CommandName.all.map (need .layered) = [4, 2, 1, 4, 2, 5, 2, 2, 1, 2, 1, 0, 0, 0, 0] ∧
    CommandName.all.map (need .singleLayer) = [4, 2, 1, 4, 1, 4, 1, 1, 1, 2, 1, 0, 0, 0, 0] ∧
    ∀ (b0 b1 b2 b3 b4 : Byte) (q : List Byte),
      layerField .layered (b0 :: b1 :: q) = b0 ∧ ledField .layered (b0 :: b1 :: q) = b1 ∧
        colorField .layered (b0 :: b1 :: b2 :: b3 :: b4 :: q) = ⟨b2, b3, b4⟩ ∧
        layerField .singleLayer (b0 :: q) = 0x00 ∧ ledField .singleLayer (b0 :: q) = b0 ∧
        colorField .singleLayer (b0 :: b1 :: b2 :: b3 :: q) = ⟨b1, b2, b3⟩

/-- cfg.wf holds iff MAX_LAYERS and MAX_LEDS are 1..256, MAX_BUF_LEN is 4 or 5, BLOCK_LEN is at least 1 and CMD_ID
is injective over all 15 names. (UG_LEFT and UG_RIGHT are bytes by type.) (00_scope.md R6.) -/
def Obligations.ConfigValidIff : Prop :=
  ∀ cfg : Config, cfg.wf = true ↔
    (1 ≤ cfg.maxLayers ∧ cfg.maxLayers ≤ 256 ∧ 1 ≤ cfg.maxLeds ∧ cfg.maxLeds ≤ 256 ∧
      (cfg.maxBufLen = 4 ∨ cfg.maxBufLen = 5) ∧ 1 ≤ cfg.blockLen ∧
      ∀ c d : CommandName, cfg.cmdIds.id c = cfg.cmdIds.id d → c = d)

/-- step refuses with invalidConfig iff the configuration record is invalid (R7), and with blockFrameLength iff the
record is valid and the next operation is a block frame that has not exactly BLOCK_LEN bytes. That the model
refuses such a frame rather than excluding it from the inputs is its own choice, log 10. (00_scope.md R7,
41_block_decoder.md R120, 60_exceptions.md section 4 (the host interface).) -/
def Obligations.RefusedExactlyWhen : Prop :=
  ∀ (s : State) (r : Refusal), step s = .refused r ↔
    (s.cfg.wf = false ∧ r = .invalidConfig) ∨
      (s.cfg.wf = true ∧ r = .blockFrameLength ∧
        ∃ f rest, s.inputs = .blockFrame f :: rest ∧ f.length ≠ s.cfg.blockLen)

/-- For every configuration, right after reset dst is AwCmd, cmd, len and idx are 0, buf has MAX_BUF_LEN bytes,
every entry is disabled with colour (0, 0, 0), and DEC and REQ are empty; State.reset is that state under REF.
Nothing is said of the bytes of buf, which R35 leaves unspecified. (10_state.md R35, 92_eei_decisions.md D14,
92_eei_decisions.md D18.) -/
def Obligations.ResetStateValues : Prop :=
  State.reset = State.resetFor .ref ∧ ∀ (cfg : Config) (l e : Byte),
    (State.resetFor cfg).rx.dst = .awCmd ∧ (State.resetFor cfg).rx.cmd = 0x00 ∧ (State.resetFor cfg).rx.len = 0x00 ∧
      (State.resetFor cfg).rx.idx = 0x00 ∧ (State.resetFor cfg).rx.buf.length = cfg.maxBufLen ∧
      (State.resetFor cfg).entryAt l e = ⟨false, ⟨0x00, 0x00, 0x00⟩⟩ ∧
      (State.resetFor cfg).decTrace = [] ∧ (State.resetFor cfg).reqTrace = []

/-- When the next operation is reset, the step answers a state whose dst is AwCmd, whose cmd, len and idx are 0,
whose entries all read disabled and (0, 0, 0), and whose DEC and REQ are empty, whatever was being received. The
configuration stays, and so do the operations offered after it (the model's choice, log 6).
(70_reset_and_hazards.md R220, 92_eei_decisions.md D14, 92_eei_decisions.md D18.) -/
def Obligations.ResetStepRestoresReset : Prop :=
  ∀ (s : State) (rest : List PortOp), s.cfg.wf = true → s.inputs = .reset :: rest →
    ∃ t, step s = .next t ∧ t.rx.dst = .awCmd ∧ t.rx.cmd = 0x00 ∧ t.rx.len = 0x00 ∧ t.rx.idx = 0x00 ∧
      t.rx.buf.length = s.cfg.maxBufLen ∧ (∀ l e, t.entryAt l e = ⟨false, ⟨0x00, 0x00, 0x00⟩⟩) ∧
      t.decTrace = [] ∧ t.reqTrace = [] ∧ t.cfg = s.cfg ∧ t.inputs = rest

/-- Safety.Inv holds of State.reset, and of the reset state of every valid configuration: valid record, decoder
registers in order, canonical array within its bounds, traces in order. (10_state.md R27, 10_state.md R35,
20_memory.md R44.) -/
def Obligations.InvHoldsAtReset : Prop :=
  Safety.Inv State.reset ∧ ∀ cfg : Config, cfg.wf = true → Safety.Inv (State.resetFor cfg)

/-- From every state with Inv, a step that answers a next state gives a state with Inv: the record stays valid; dst
is never Invalid, idx is 0 in AwLen and below len in AwPay; buf has MAX_BUF_LEN bytes; the array's list is
canonical and holds no entry outside MAX_LAYERS x MAX_LEDS; each DEC payload has a length its path can deliver;
REQ is no longer than DEC. (10_state.md R23, 10_state.md R27, 10_state.md R28, 10_state.md R29, 20_memory.md
R42, 40_stream_decoder.md R107, 44_passthrough_commands.md R184.) -/
def Obligations.InvKeptByStep : Prop :=
  ∀ s t : State, Safety.Inv s → step s = .next t → Safety.Inv t

/-- If a step answers a next state, its configuration record is the one before (R32, which the spec marks as
derived). That the record stands in State is the model's own choice, log 1. (10_state.md R32.) -/
def Obligations.ConfigFixed : Prop :=
  ∀ s t : State, step s = .next t → t.cfg = s.cfg

/-- Under a valid configuration record, if the next operation offered (if any) is one its port takes (a block frame
has BLOCK_LEN bytes), the step answers a next state, from every state. (60_exceptions.md R200.) -/
def Obligations.StepTotal : Prop :=
  (∀ (s : State) (r : Fault), step s ≠ .fault r) ∧
    ∀ s : State, s.cfg.wf = true → (∀ op rest, s.inputs = op :: rest → Safety.PortOpOk s.cfg op) →
      ∃ t, step s = .next t

/-- When no client offers an operation, the step answers the same state: the CFD never makes progress on its own
(last paragraph of 60_exceptions.md section 4). That such a step exists at all is the model's choice, log 4.
(60_exceptions.md section 4 (the host interface), 92_eei_decisions.md D12.) -/
def Obligations.IdleWaits : Prop :=
  ∀ s : State, s.cfg.wf = true → s.inputs = [] → step s = .next s

/-- A stream byte in AwCmd sets cmd to the byte, idx to 0 and dst to AwLen, for all 256 bytes; nothing is dispatched
and nothing outside the decoder registers changes. With idx 0 no byte of buf is valid. (R101.) -/
def Obligations.StreamAwaitingCommand : Prop :=
  ∀ (s : State) (b : Byte) (rest : List PortOp), s.cfg.wf = true → s.inputs = .streamByte b :: rest →
    s.rx.dst = .awCmd →
    ∃ rx : StreamRegs, step s = .next { s with inputs := rest, rx := rx } ∧
      rx.cmd = b ∧ rx.idx = 0x00 ∧ rx.dst = .awLen

/-- A zero byte in AwLen sets len to 0 and dst to AwCmd and dispatches (Stream, cmd, []) in the same step, for a
known and for an unknown id. (R102.) -/
def Obligations.StreamZeroLength : Prop :=
  ∀ (s : State) (rest : List PortOp), s.cfg.wf = true → s.inputs = .streamByte 0x00 :: rest → s.rx.dst = .awLen →
    Safety.Dispatches (step s) .stream s.rx.cmd []
      { s with inputs := rest, rx := { s.rx with len := 0x00, dst := .awCmd } }

/-- A non-zero byte in AwLen sets len to it and dst to AwPay; idx and everything outside the decoder registers stay,
and nothing is dispatched. (R103.) -/
def Obligations.StreamNonzeroLength : Prop :=
  ∀ (s : State) (b : Byte) (rest : List PortOp), s.cfg.wf = true → s.inputs = .streamByte b :: rest →
    s.rx.dst = .awLen → b ≠ 0x00 →
    step s = .next { s with inputs := rest, rx := { s.rx with len := b, dst := .awPay } }

/-- A byte in AwPay that does not complete the frame is stored at buf[idx] when idx < MAX_BUF_LEN and dropped
otherwise; idx is incremented either way, dst stays AwPay, and nothing outside the decoder registers changes.
(R104.) -/
def Obligations.StreamStoresPayload : Prop :=
  ∀ (s : State) (b : Byte) (rest : List PortOp), s.cfg.wf = true → s.inputs = .streamByte b :: rest →
    s.rx.dst = .awPay → s.rx.idx + 0x01 ≠ s.rx.len →
    step s = .next { s with
      inputs := rest
      rx := { s.rx with
        idx := s.rx.idx + 0x01
        buf := if s.rx.idx.toNat < s.cfg.maxBufLen then s.rx.buf.set s.rx.idx.toNat b else s.rx.buf } }

/-- In AwPay, when idx + 1 equals len, the byte is stored first (if within capacity), then buf[0 .. min(len,
MAX_BUF_LEN)) is dispatched under cmd and dst returns to AwCmd, all in one step. (R105.) -/
def Obligations.StreamCompletesFrame : Prop :=
  ∀ (s : State) (b : Byte) (rest : List PortOp), s.cfg.wf = true → s.inputs = .streamByte b :: rest →
    s.rx.dst = .awPay → s.rx.idx + 0x01 = s.rx.len →
    let buf := if s.rx.idx.toNat < s.cfg.maxBufLen then s.rx.buf.set s.rx.idx.toNat b else s.rx.buf
    Safety.Dispatches (step s) .stream s.rx.cmd (buf.take (min s.rx.len.toNat s.cfg.maxBufLen))
      { s with inputs := rest, rx := { s.rx with dst := .awCmd, idx := s.rx.idx + 0x01, buf := buf } }

/-- A stream byte in Invalid sets dst to AwCmd and idx to 0 and is discarded; nothing else changes. That it is not
taken as a command id is the spec's own decision D9. (40_stream_decoder.md R106, 92_eei_decisions.md D9.) -/
def Obligations.StreamRecovers : Prop :=
  ∀ (s : State) (b : Byte) (rest : List PortOp), s.cfg.wf = true → s.inputs = .streamByte b :: rest →
    s.rx.dst = .invalid →
    step s = .next { s with inputs := rest, rx := { s.rx with dst := .awCmd, idx := 0x00 } }

/-- For every frame of BLOCK_LEN bytes, the step dispatches (Block, f[0], f[1 .. N)), for a known and for an unknown
id, untruncated; the decoder registers are those before, in whatever state they are. (R120.) -/
def Obligations.BlockStepDispatches : Prop :=
  ∀ (s : State) (id : Byte) (p : List Byte) (rest : List PortOp), s.cfg.wf = true →
    s.inputs = .blockFrame (id :: p) :: rest → p.length + 1 = s.cfg.blockLen →
    Safety.Dispatches (step s) .block id p { s with inputs := rest } ∧ ∀ t, step s = .next t → t.rx = s.rx

/-- When a block frame at the head of the inputs decodes to i, step is exec i after the operation is taken and its
DEC event recorded; when a stream byte completes a frame (zero length in AwLen, or last payload byte in AwPay)
whose id and payload decode to i, step is exec i after the register update of that byte and the DEC event.
(44_passthrough_commands.md R170, 40_stream_decoder.md R102, 40_stream_decoder.md R105, 41_block_decoder.md
R120.) -/
def Obligations.StepRunsDecodedCommand : Prop :=
  ∀ (s : State) (i : Instr) (rest : List PortOp), s.cfg.wf = true →
    (∀ f, s.inputs = .blockFrame f :: rest → decode s.cfg .block f = .ok (i, []) →
      step s = exec i { s with
        inputs := rest
        decTrace := s.decTrace ++ [⟨.block, s.cfg.cmdIds.id i.name, i.payload⟩] }) ∧
    (s.inputs = .streamByte 0x00 :: rest → s.rx.dst = .awLen → decodeCommand s.cfg .stream s.rx.cmd [] = .ok i →
      step s = exec i { s with
        inputs := rest
        rx := { s.rx with len := 0x00, dst := .awCmd }
        decTrace := s.decTrace ++ [⟨.stream, s.rx.cmd, []⟩] }) ∧
    (∀ b, s.inputs = .streamByte b :: rest → s.rx.dst = .awPay → s.rx.idx + 0x01 = s.rx.len →
      let buf := if s.rx.idx.toNat < s.cfg.maxBufLen then s.rx.buf.set s.rx.idx.toNat b else s.rx.buf
      decodeCommand s.cfg .stream s.rx.cmd (buf.take (min s.rx.len.toNat s.cfg.maxBufLen)) = .ok i →
      step s = exec i { s with
        inputs := rest
        rx := { s.rx with dst := .awCmd, idx := s.rx.idx + 0x01, buf := buf }
        decTrace := s.decTrace ++ [⟨.stream, s.rx.cmd, buf.take (min s.rx.len.toNat s.cfg.maxBufLen)⟩] })

/-- Under a valid configuration and for every payload and path, the id of command c decodes to c with exactly that
path and payload, and an id that no command has is rejected by name. (30_encoding.md R65.) -/
def Obligations.CommandOfId : Prop :=
  ∀ (cfg : Config) (src : Source) (id : Byte) (p : List Byte), cfg.wf = true →
    (∀ c, cfg.cmdIds.id c = id → decodeCommand cfg src id p = .ok (Instr.ofName c src p)) ∧
      ((∀ c, cfg.cmdIds.id c ≠ id) → decodeCommand cfg src id p = .error (.unknownId id))

/-- ToggleIndicator completes from every state with every payload: nothing changes if the payload is short and
ignored or the target is out of range; otherwise the target's enable bit is inverted, its colour kept. Frame:
all other entries, the decoder registers, DEC, REQ and every other field are unchanged. Target by R150. Three
clauses rest on the spec's own decisions (log 14): layer 0 under SingleLayer on D4, the two treatments of a
short payload on D6, the ignored excess bytes on D7. Its id is CMD_ID(ToggleIndicator), 0x05 under REF_IDS (D1).
(43_indicator_commands.md R151, 43_indicator_commands.md R150, 30_encoding.md R68, 30_encoding.md R69,
92_eei_decisions.md D1, D4, D6, D7.) -/
def Obligations.ToggleIndicatorInverts : Prop :=
  Safety.EncodedAs .toggleIndicator 0x05 ∧ ∀ (src : Source) (p : List Byte) (s : State),
    let l := layerField s.cfg.variant p
    let e := ledField s.cfg.variant p
    (p.length < need s.cfg.variant .toggleIndicator → s.cfg.shortPayload = .ignore →
      exec (.toggleIndicator src p) s = .next s) ∧
    (need s.cfg.variant .toggleIndicator ≤ p.length ∨ s.cfg.shortPayload = .zeroFill →
      ∃ t, exec (.toggleIndicator src p) s = .next t ∧
        Safety.EntryWritten s t l e ⟨!(s.entryAt l e).enabled, (s.entryAt l e).color⟩)

/-- SetIndicatorColor completes from every state with every payload: nothing changes if the payload is short and
ignored or the target is out of range; otherwise all three colour bytes of the target are replaced, its enable
bit kept. Frame: everything else is unchanged. Target by R150. Three clauses rest on the spec's own decisions
(log 14): layer 0 under SingleLayer on D4, the two treatments of a short payload on D6, the ignored excess bytes
on D7. Its id is CMD_ID(SetIndicatorColor), 0x06 under REF_IDS (D1). (43_indicator_commands.md R152,
43_indicator_commands.md R150, 30_encoding.md R68, 30_encoding.md R69, 92_eei_decisions.md D1, D4, D6, D7.) -/
def Obligations.SetIndicatorColorOverwrites : Prop :=
  Safety.EncodedAs .setIndicatorColor 0x06 ∧ ∀ (src : Source) (p : List Byte) (s : State),
    let l := layerField s.cfg.variant p
    let e := ledField s.cfg.variant p
    (p.length < need s.cfg.variant .setIndicatorColor → s.cfg.shortPayload = .ignore →
      exec (.setIndicatorColor src p) s = .next s) ∧
    (need s.cfg.variant .setIndicatorColor ≤ p.length ∨ s.cfg.shortPayload = .zeroFill →
      ∃ t, exec (.setIndicatorColor src p) s = .next t ∧
        Safety.EntryWritten s t l e ⟨(s.entryAt l e).enabled, colorField s.cfg.variant p⟩)

/-- EnableIndicator completes from every state with every payload: nothing changes if the payload is short and
ignored or the target is out of range; otherwise the target's enable bit is true, its colour kept. Frame:
everything else is unchanged. Target by R150. Three clauses rest on the spec's own decisions (log 14): layer 0
under SingleLayer on D4, the two treatments of a short payload on D6, the ignored excess bytes on D7. Its id is
CMD_ID(EnableIndicator), 0x07 under REF_IDS (D1). (43_indicator_commands.md R153, 43_indicator_commands.md R150,
30_encoding.md R68, 30_encoding.md R69, 92_eei_decisions.md D1, D4, D6, D7.) -/
def Obligations.EnableIndicatorSets : Prop :=
  Safety.EncodedAs .enableIndicator 0x07 ∧ ∀ (src : Source) (p : List Byte) (s : State),
    let l := layerField s.cfg.variant p
    let e := ledField s.cfg.variant p
    (p.length < need s.cfg.variant .enableIndicator → s.cfg.shortPayload = .ignore →
      exec (.enableIndicator src p) s = .next s) ∧
    (need s.cfg.variant .enableIndicator ≤ p.length ∨ s.cfg.shortPayload = .zeroFill →
      ∃ t, exec (.enableIndicator src p) s = .next t ∧
        Safety.EntryWritten s t l e ⟨true, (s.entryAt l e).color⟩)

/-- DisableIndicator completes from every state with every payload: nothing changes if the payload is short and
ignored or the target is out of range; otherwise the target's enable bit is false, its colour kept. Frame:
everything else is unchanged. Target by R150. Three clauses rest on the spec's own decisions (log 14): layer 0
under SingleLayer on D4, the two treatments of a short payload on D6, the ignored excess bytes on D7. Its id is
CMD_ID(DisableIndicator), 0x08 under REF_IDS (D1). (43_indicator_commands.md R154, 43_indicator_commands.md
R150, 30_encoding.md R68, 30_encoding.md R69, 92_eei_decisions.md D1, D4, D6, D7.) -/
def Obligations.DisableIndicatorClears : Prop :=
  Safety.EncodedAs .disableIndicator 0x08 ∧ ∀ (src : Source) (p : List Byte) (s : State),
    let l := layerField s.cfg.variant p
    let e := ledField s.cfg.variant p
    (p.length < need s.cfg.variant .disableIndicator → s.cfg.shortPayload = .ignore →
      exec (.disableIndicator src p) s = .next s) ∧
    (need s.cfg.variant .disableIndicator ≤ p.length ∨ s.cfg.shortPayload = .zeroFill →
      ∃ t, exec (.disableIndicator src p) s = .next t ∧
        Safety.EntryWritten s t l e ⟨false, (s.entryAt l e).color⟩)

/-- The Reset command completes from every state: REQ gains HardReset if the first four delivered bytes are DE AD F0
00 (excess bytes ignored), and otherwise, a payload of under four bytes included, nothing changes. The array and
the decoder registers stay: the CFD is not reset by it. Its id is CMD_ID(Reset), 0x01 under REF_IDS. The short
case is the spec's decision D16. (44_passthrough_commands.md R173, 92_eei_decisions.md D16.) -/
def Obligations.ResetCommandNeedsMagic : Prop :=
  Safety.EncodedAs .reset 0x01 ∧ ∀ (src : Source) (p : List Byte) (s : State),
    exec (.reset src p) s = .next
      (if p.take 4 = [0xDE, 0xAD, 0xF0, 0x00] then { s with reqTrace := s.reqTrace ++ [.hardReset] } else s)

/-- SetMode completes from every state: if the payload has under 2 bytes and SHORT_PAYLOAD is Ignore nothing
changes; otherwise REQ gains the request with persist = (p[0] is not zero) and mode = p[1], unchecked, a missing
byte reading 0x00. Every other field, the array included, is unchanged. The readings of D6, D8, D30 are the
spec's own decisions. Its id is CMD_ID(SetMode), 0x02 under REF_IDS. (44_passthrough_commands.md R174,
44_passthrough_commands.md R172, 92_eei_decisions.md D6, D8, D30.) -/
def Obligations.SetModeRequests : Prop :=
  Safety.EncodedAs .setMode 0x02 ∧ ∀ (src : Source) (p : List Byte) (s : State),
    exec (.setMode src p) s = .next
      (if p.length < 2 ∧ s.cfg.shortPayload = .ignore then s
        else { s with reqTrace := s.reqTrace ++ [.setMode (p.getD 0 0x00 != 0x00) (p.getD 1 0x00)] })

/-- ToggleMatrix completes from every state: if the payload has under 1 byte and SHORT_PAYLOAD is Ignore nothing
changes; otherwise REQ gains the request with persist = (p[0] is not zero), a missing byte reading 0x00. Every
other field, the array included, is unchanged. The readings of D6, D8 are the spec's own decisions. Its id is
CMD_ID(ToggleMatrix), 0x03 under REF_IDS. (44_passthrough_commands.md R175, 44_passthrough_commands.md R172,
92_eei_decisions.md D6, D8.) -/
def Obligations.ToggleMatrixRequests : Prop :=
  Safety.EncodedAs .toggleMatrix 0x03 ∧ ∀ (src : Source) (p : List Byte) (s : State),
    exec (.toggleMatrix src p) s = .next
      (if p.length < 1 ∧ s.cfg.shortPayload = .ignore then s
        else { s with reqTrace := s.reqTrace ++ [.toggleMatrix (p.getD 0 0x00 != 0x00)] })

/-- SetMatrixColor completes from every state: if the payload has under 4 bytes and SHORT_PAYLOAD is Ignore nothing
changes; otherwise REQ gains the request with persist = (p[0] is not zero) and the colour bytes p[1], p[2], p[3]
in order, a missing byte reading 0x00. Every other field, the array included, is unchanged. The readings of D6,
D8 are the spec's own decisions. Its id is CMD_ID(SetMatrixColor), 0x04 under REF_IDS.
(44_passthrough_commands.md R176, 44_passthrough_commands.md R172, 92_eei_decisions.md D6, D8.) -/
def Obligations.SetMatrixColorRequests : Prop :=
  Safety.EncodedAs .setMatrixColor 0x04 ∧ ∀ (src : Source) (p : List Byte) (s : State),
    exec (.setMatrixColor src p) s = .next
      (if p.length < 4 ∧ s.cfg.shortPayload = .ignore then s
        else { s with reqTrace := s.reqTrace ++ [
          .setMatrixColor (p.getD 0 0x00 != 0x00) (p.getD 1 0x00) (p.getD 2 0x00) (p.getD 3 0x00)] })

/-- ActivateLayer completes from every state: if the payload has under 1 byte and SHORT_PAYLOAD is Ignore nothing
changes; otherwise REQ gains the request with layer = p[0], not checked against MAX_LAYERS, a missing byte
reading 0x00. Every other field, the array included, is unchanged. The readings of D6, D30 are the spec's own
decisions. Its id is CMD_ID(ActivateLayer), 0x09 under REF_IDS. (44_passthrough_commands.md R177,
44_passthrough_commands.md R172, 92_eei_decisions.md D6, D30.) -/
def Obligations.ActivateLayerRequests : Prop :=
  Safety.EncodedAs .activateLayer 0x09 ∧ ∀ (src : Source) (p : List Byte) (s : State),
    exec (.activateLayer src p) s = .next
      (if p.length < 1 ∧ s.cfg.shortPayload = .ignore then s
        else { s with reqTrace := s.reqTrace ++ [.activateLayer (p.getD 0 0x00)] })

/-- SetSpeed completes from every state: if the payload has under 2 bytes and SHORT_PAYLOAD is Ignore nothing
changes; otherwise REQ gains the request with persist = (p[0] is not zero) and speed = p[1], unchecked, a
missing byte reading 0x00. Every other field, the array included, is unchanged. The readings of D6, D8, D30 are
the spec's own decisions. Its id is CMD_ID(SetSpeed), 0x0A under REF_IDS. (44_passthrough_commands.md R178,
44_passthrough_commands.md R172, 92_eei_decisions.md D6, D8, D30.) -/
def Obligations.SetSpeedRequests : Prop :=
  Safety.EncodedAs .setSpeed 0x0A ∧ ∀ (src : Source) (p : List Byte) (s : State),
    exec (.setSpeed src p) s = .next
      (if p.length < 2 ∧ s.cfg.shortPayload = .ignore then s
        else { s with reqTrace := s.reqTrace ++ [.setSpeed (p.getD 0 0x00 != 0x00) (p.getD 1 0x00)] })

/-- SetMuteStatus completes from every state: if the payload has under 1 byte and SHORT_PAYLOAD is Ignore nothing
changes; otherwise REQ gains the request with enabled = (p[0] is not zero), a missing byte reading 0x00. Every
other field, the array included, is unchanged. The readings of D6, D8 are the spec's own decisions. Its id is
CMD_ID(SetMuteStatus), 0x0B under REF_IDS. (44_passthrough_commands.md R179, 44_passthrough_commands.md R172,
92_eei_decisions.md D6, D8.) -/
def Obligations.SetMuteStatusRequests : Prop :=
  Safety.EncodedAs .setMuteStatus 0x0B ∧ ∀ (src : Source) (p : List Byte) (s : State),
    exec (.setMuteStatus src p) s = .next
      (if p.length < 1 ∧ s.cfg.shortPayload = .ignore then s
        else { s with reqTrace := s.reqTrace ++ [.setMute (p.getD 0 0x00 != 0x00)] })

/-- EndCall completes from every state, by either path and with every payload: REQ gains EndCall, and every other
field is unchanged. Its id is CMD_ID(EndCall), 0x0C under REF_IDS. (R180.) -/
def Obligations.EndCallRequests : Prop :=
  Safety.EncodedAs .endCall 0x0C ∧ ∀ (src : Source) (p : List Byte) (s : State),
    exec (.endCall src p) s = .next { s with reqTrace := s.reqTrace ++ [.endCall] }

/-- Echo completes from every state with every payload, the empty one included: by the stream REQ gains EchoStream
of exactly the delivered bytes, by the block path EchoBlock of the id followed by the payload; every other field
is unchanged. Its id is CMD_ID(Echo), 0x0D under REF_IDS. That the streaming echo is the delivered (truncated)
payload and is not gated is the spec's decision D17. (44_passthrough_commands.md R181, 92_eei_decisions.md D17.) -/
def Obligations.EchoReturnsBytes : Prop :=
  Safety.EncodedAs .echo 0x0D ∧ ∀ (p : List Byte) (s : State),
    exec (.echo .stream p) s = .next { s with reqTrace := s.reqTrace ++ [.echoStream p] } ∧
      exec (.echo .block p) s = .next { s with reqTrace := s.reqTrace ++ [.echoBlock (s.cfg.cmdIds.id .echo :: p)] }

/-- Connect completes from every state, by either path and with every payload: REQ gains Connect, and every other
field is unchanged. Its id is CMD_ID(Connect), 0x0E under REF_IDS. (R182.) -/
def Obligations.ConnectRequests : Prop :=
  Safety.EncodedAs .connect 0x0E ∧ ∀ (src : Source) (p : List Byte) (s : State),
    exec (.connect src p) s = .next { s with reqTrace := s.reqTrace ++ [.connect] }

/-- Disconnect completes from every state, by either path and with every payload: REQ gains Disconnect, and every
other field is unchanged. Its id is CMD_ID(Disconnect), 0x0F under REF_IDS. It formalises R183's pseudocode
Emit(REQ, Disconnect) and its words 'payload bytes ignored'; of the rest of R183's corner cases, that the CFD
keeps decoding while the host is disconnected, it says nothing. (44_passthrough_commands.md R183.) -/
def Obligations.DisconnectRequests : Prop :=
  Safety.EncodedAs .disconnect 0x0F ∧ ∀ (src : Source) (p : List Byte) (s : State),
    exec (.disconnect src p) s = .next { s with reqTrace := s.reqTrace ++ [.disconnect] }

/-- For each of the 15 commands, from every state: exec answers a next state that differs in the array and REQ only;
the decoder registers, DEC, the read results and the inputs are unchanged. The four indicator commands leave REQ
unchanged and write at most the entry at the layer and LED of R150, one of its two fields: every other address
reads as before, and at an invalid address nothing changes. The other eleven leave the array unchanged, a Reset
with a wrong magic included, and REQ is unchanged or gains exactly one event. A payload that is short and
ignored changes nothing at all. Layer 0 of SingleLayer, the treatment of a short payload and REQ as a trace
without loss are the spec's own decisions D4, D6 and D26 (log 14). (44_passthrough_commands.md R184,
60_exceptions.md R208, 43_indicator_commands.md R150, 10_state.md R30, 30_encoding.md R68, 92_eei_decisions.md
D4, D6, D26.) -/
def Obligations.CommandEffectShape : Prop :=
  ∀ (i : Instr) (s : State), ∃ t, exec i s = .next t ∧
    t = { s with array := t.array, reqTrace := t.reqTrace } ∧
    (i.payload.length < need s.cfg.variant i.name → s.cfg.shortPayload = .ignore → t = s) ∧
    (i.name ∈ Safety.indicatorCommands →
      let l := layerField s.cfg.variant i.payload
      let e := ledField s.cfg.variant i.payload
      t.reqTrace = s.reqTrace ∧ ∃ x, Safety.EntryWritten s t l e x ∧
        (x.enabled = (s.entryAt l e).enabled ∨ x.color = (s.entryAt l e).color)) ∧
    (i.name ∉ Safety.indicatorCommands →
      t.array = s.array ∧ (t.reqTrace = s.reqTrace ∨ ∃ r, t.reqTrace = s.reqTrace ++ [r]))

/-- Under SHORT_PAYLOAD = ZeroFill, every command but Reset (which R68 excepts) and Echo (which is never short) does
with p what it does with p padded by 0x00 to need(c) bytes, from every state and by both paths. (30_encoding.md
R68, 92_eei_decisions.md D6.) -/
def Obligations.ZeroFillPadsPayload : Prop :=
  ∀ (c : CommandName) (src : Source) (p : List Byte) (s : State), s.cfg.shortPayload = .zeroFill → c ≠ .reset →
    c ≠ .echo →
    exec (Instr.ofName c src p) s =
      exec (Instr.ofName c src (p ++ List.replicate (need s.cfg.variant c - p.length) 0x00)) s

/-- Under SHORT_PAYLOAD = Ignore, a command whose payload has fewer than need(c) bytes leaves the state as it is,
for every command and both variants, Reset included. (30_encoding.md R68, 92_eei_decisions.md D6.) -/
def Obligations.IgnoreSkipsShortPayload : Prop :=
  ∀ (c : CommandName) (src : Source) (p : List Byte) (s : State), s.cfg.shortPayload = .ignore →
    p.length < need s.cfg.variant c → exec (Instr.ofName c src p) s = .next s

/-- A command other than Echo does with a payload of at least need(c) bytes what it does with its first need(c)
bytes, from every state. The spec marks this as its own decision D7. (30_encoding.md R69, 92_eei_decisions.md
D7.) -/
def Obligations.ExcessBytesIgnored : Prop :=
  ∀ (c : CommandName) (src : Source) (p : List Byte) (s : State), c ≠ .echo → need s.cfg.variant c ≤ p.length →
    exec (Instr.ofName c src p) s = exec (Instr.ofName c src (p.take (need s.cfg.variant c))) s

/-- For every command but Echo, every payload and every state, exec of the command by the stream equals exec of it
by the block path. (41_block_decoder.md R123.) -/
def Obligations.SameDispatchBothPaths : Prop :=
  ∀ (c : CommandName) (p : List Byte) (s : State), c ≠ .echo →
    exec (Instr.ofName c .stream p) s = exec (Instr.ofName c .block p) s

/-- The set_color operation completes: at a valid address the three colour bytes are replaced and the enable bit
kept; out of range nothing changes; no other entry and no other field but the taken operation changes. (R131.) -/
def Obligations.SetColorPort : Prop :=
  ∀ (s : State) (l e : Byte) (c : Color) (rest : List PortOp), s.cfg.wf = true → s.inputs = .setColor l e c :: rest →
    ∃ t, step s = .next t ∧ Safety.EntryWritten { s with inputs := rest } t l e ⟨(s.entryAt l e).enabled, c⟩

/-- The set_enabled operation completes: at a valid address the enable bit is v and the colour kept; out of range
nothing changes; no other entry and no other field but the taken operation changes. (R132.) -/
def Obligations.SetEnabledPort : Prop :=
  ∀ (s : State) (l e : Byte) (v : Bool) (rest : List PortOp), s.cfg.wf = true → s.inputs = .setEnabled l e v :: rest →
    ∃ t, step s = .next t ∧ Safety.EntryWritten { s with inputs := rest } t l e ⟨v, (s.entryAt l e).color⟩

/-- The toggle_enabled operation completes: at a valid address the enable bit is inverted and the colour kept, in
one step; out of range nothing changes; no other entry and no other field but the taken operation changes.
(R133.) -/
def Obligations.ToggleEnabledPort : Prop :=
  ∀ (s : State) (l e : Byte) (rest : List PortOp), s.cfg.wf = true → s.inputs = .toggleEnabled l e :: rest →
    ∃ t, step s = .next t ∧ Safety.EntryWritten { s with inputs := rest } t l e ⟨!(s.entryAt l e).enabled, (s.entryAt l e).color⟩

/-- The operation completes: entry (l, UG_LEFT), if valid, and entry (l, UG_RIGHT), if valid, become enabled with
the colour; every other entry reads as before, and no other field but the taken operation changes. With UG_LEFT
= UG_RIGHT one entry is written. Checking each LED on its own is the spec's decision D15. (42_indicator_array.md
R134, 92_eei_decisions.md D15.) -/
def Obligations.UnderglowPairPort : Prop :=
  ∀ (s : State) (l : Byte) (c : Color) (rest : List PortOp), s.cfg.wf = true →
    s.inputs = .setUnderglowPair l c :: rest →
    ∃ t, step s = .next t ∧ t = { s with inputs := rest, array := t.array } ∧
      ∀ a, t.array.read a =
        if (Config.valid s.cfg l s.cfg.ugLeft = true ∧ a = address l s.cfg.ugLeft) ∨
            (Config.valid s.cfg l s.cfg.ugRight = true ∧ a = address l s.cfg.ugRight)
        then ⟨true, c⟩ else s.array.read a

/-- The read completes and returns Some of the enable bit and colour at a valid address, enabled or not, and None
out of range. Nothing of the CFD changes: the value is appended to the model's own record of returned reads, log
5. (42_indicator_array.md R135, 92_eei_decisions.md D28.) -/
def Obligations.ReadEntryPort : Prop :=
  ∀ (s : State) (l e : Byte) (rest : List PortOp), s.cfg.wf = true → s.inputs = .readEntry l e :: rest →
    step s = .next { s with
      inputs := rest
      readTrace := s.readTrace ++
        [.entry (if l.toNat < s.cfg.maxLayers ∧ e.toNat < s.cfg.maxLeds then some (s.array.read (address l e))
          else none)] }

/-- The read completes with a list that holds (e, c) exactly when (l, e) is valid, enabled and has colour c, in
strictly ascending LED order without repeats; for l >= MAX_LAYERS it is []. Nothing of the CFD changes: the list
is appended to the model's own record of returned reads, log 5. (42_indicator_array.md R136.) -/
def Obligations.ColorsForLayerPort : Prop :=
  ∀ (s : State) (l : Byte) (rest : List PortOp), s.cfg.wf = true → s.inputs = .colorsForLayer l :: rest →
    ∃ xs, step s = .next { s with inputs := rest, readTrace := s.readTrace ++ [.colors xs] } ∧
      (s.cfg.maxLayers ≤ l.toNat → xs = []) ∧ xs.Pairwise (fun x y => x.1.toNat < y.1.toNat) ∧
      ∀ (e : Byte) (c : Color), (e, c) ∈ xs ↔ (l.toNat < s.cfg.maxLayers ∧ e.toNat < s.cfg.maxLeds ∧
        (s.entryAt l e).enabled = true ∧ (s.entryAt l e).color = c)

/-- For every address outside MAX_LAYERS x MAX_LEDS, set_color, set_enabled and toggle_enabled, and for every layer
out of range set_underglow_pair, answer a state that differs only in that the operation has been taken. (R42.) -/
def Obligations.OutOfRangeWritesIgnored : Prop :=
  ∀ (s : State) (rest : List PortOp), s.cfg.wf = true →
    (∀ l e, s.cfg.maxLayers ≤ l.toNat ∨ s.cfg.maxLeds ≤ e.toNat →
      (∀ c, s.inputs = .setColor l e c :: rest → step s = .next { s with inputs := rest }) ∧
      (∀ v, s.inputs = .setEnabled l e v :: rest → step s = .next { s with inputs := rest }) ∧
      (s.inputs = .toggleEnabled l e :: rest → step s = .next { s with inputs := rest })) ∧
    (∀ l c, s.cfg.maxLayers ≤ l.toNat → s.inputs = .setUnderglowPair l c :: rest →
      step s = .next { s with inputs := rest })

/-- From every state whose array is canonical, two toggle_enabled operations on one entry, valid or not, leave every
field as it was, but for the two operations taken. (42_indicator_array.md R138.) -/
def Obligations.ToggleTwiceRestores : Prop :=
  ∀ (s : State) (l e : Byte) (rest : List PortOp), s.cfg.wf = true → s.array.wf →
    s.inputs = .toggleEnabled l e :: .toggleEnabled l e :: rest →
    Safety.runSteps 2 s = .next { s with inputs := rest }

/-- From every state whose array is canonical, set_color(l, e, c) and set_enabled(l, e, v) give the same state in
either order, and so do any two of set_color, set_enabled and toggle_enabled on different entries.
(42_indicator_array.md R139.) -/
def Obligations.ArrayWritesCommute : Prop :=
  ∀ (s : State) (op op' : PortOp) (rest : List PortOp), s.cfg.wf = true → s.array.wf →
    (∃ x y, Safety.writtenEntry op = some x ∧ Safety.writtenEntry op' = some y ∧ x ≠ y) ∨
      (∃ l e c v, op = .setColor l e c ∧ op' = .setEnabled l e v) →
    Safety.runSteps 2 { s with inputs := op :: op' :: rest } = Safety.runSteps 2 { s with inputs := op' :: op :: rest }

/-- If two arrays are in canonical form and every address reads the same in both, they are equal lists, so the
sparse representation (the model's choice, log 9) holds nothing but the entries. (10_state.md R29, 20_memory.md
R40.) -/
def Obligations.EqualReadsEqualArrays : Prop :=
  ∀ m m' : Memory, m.wf → m'.wf → (∀ a, m.read a = m'.read a) → m = m'

/-- For every valid configuration and every well-formed command, decoding its encoded frame, with any bytes after
it, answers exactly that command, by the same path and with the same payload, and leaves exactly the bytes after
it. (30_encoding.md R61, 30_encoding.md R63, 30_encoding.md R65.) -/
def Obligations.DecodeOfEncode : Prop :=
  ∀ (cfg : Config) (i : Instr) (rest : List Byte), cfg.wf = true → i.wf cfg = true →
    decode cfg i.src (encode cfg i ++ rest) = .ok (i, rest)

/-- If bytes decode as a block frame to i with some bytes left, the encoding of i followed by the bytes left is the
bytes; the same for a streaming frame whose declared length is at most MAX_BUF_LEN (a longer one is truncated,
R62). The command decoded is well-formed in both cases. (30_encoding.md R61, 30_encoding.md R62, 30_encoding.md
R63.) -/
def Obligations.EncodeOfDecode : Prop :=
  ∀ (cfg : Config) (bytes rest : List Byte) (i : Instr),
    (decode cfg .block bytes = .ok (i, rest) → i.wf cfg = true ∧ encode cfg i ++ rest = bytes) ∧
      ∀ id len : Byte, decode cfg .stream (id :: len :: bytes) = .ok (i, rest) →
        i.wf cfg = true ∧ (len.toNat ≤ cfg.maxBufLen → encode cfg i ++ rest = id :: len :: bytes)

/-- From AwCmd with a buffer of MAX_BUF_LEN bytes, feeding the frame [id][len][q] byte by byte: before the last byte
nothing but the decoder registers and the taken bytes changes; on the last byte, step 2 + len, (Stream, id, q[0
.. min(len, MAX_BUF_LEN))) is dispatched and dst is AwCmd again. Whatever was in the buffer does not show.
(40_stream_decoder.md R107, 40_stream_decoder.md R108, 70_reset_and_hazards.md R229.) -/
def Obligations.StreamFrameDispatchedOnce : Prop :=
  ∀ (s : State) (id : Byte) (q : List Byte) (rest : List PortOp), s.cfg.wf = true → s.rx.dst = .awCmd →
    s.rx.buf.length = s.cfg.maxBufLen → q.length ≤ 255 → s.inputs = Safety.streamOps (id, q) ++ rest →
    (∀ k, k < 2 + q.length → ∃ rx, Safety.runSteps k s =
      .next { s with inputs := (Safety.streamOps (id, q)).drop k ++ rest, rx := rx }) ∧
    ∃ rx : StreamRegs, rx.dst = .awCmd ∧
      Safety.Dispatches (Safety.runSteps (2 + q.length) s) .stream id (q.take s.cfg.maxBufLen)
        { s with inputs := rest, rx := rx }

/-- From AwCmd, feeding the bytes of any list of frames ends in AwCmd with exactly those bytes taken, and DEC has
gained one event for each frame, in order, each with its id and its payload cut to MAX_BUF_LEN bytes: the
decoder never gets stuck and never loses synchronisation. (40_stream_decoder.md R108, 40_stream_decoder.md
R109.) -/
def Obligations.StreamStaysInSync : Prop :=
  ∀ (frames : List (Byte × List Byte)) (s : State) (rest : List PortOp), s.cfg.wf = true → s.rx.dst = .awCmd →
    s.rx.buf.length = s.cfg.maxBufLen → (∀ f ∈ frames, f.2.length ≤ 255) →
    s.inputs = frames.flatMap Safety.streamOps ++ rest →
    ∃ t, Safety.runSteps (frames.flatMap Safety.streamOps).length s = .next t ∧ t.rx.dst = .awCmd ∧
      t.inputs = rest ∧ t.decTrace = s.decTrace ++ frames.map (Safety.streamEvent s.cfg)

/-- From every state, a stream byte that is neither a zero length in AwLen nor the payload byte at which idx + 1
equals len changes nothing but the decoder registers (and is taken): no array entry and no event.
(70_reset_and_hazards.md R229, 40_stream_decoder.md R100.) -/
def Obligations.NoEffectBeforeCompletion : Prop :=
  ∀ (s : State) (b : Byte) (rest : List PortOp), s.cfg.wf = true → s.inputs = .streamByte b :: rest →
    ¬ (s.rx.dst = .awLen ∧ b = 0x00) → ¬ (s.rx.dst = .awPay ∧ s.rx.idx + 0x01 = s.rx.len) →
    ∃ rx, step s = .next { s with inputs := rest, rx := rx }

/-- A step on any operation but a stream byte or reset leaves dst, cmd, len, idx and buf unchanged, even in the
middle of a streaming frame, and takes just that operation. That the two paths share no state is the spec's
decision D13. (10_state.md R21, 40_stream_decoder.md R111, 41_block_decoder.md R122, 92_eei_decisions.md D13.) -/
def Obligations.OtherPortsKeepDecoder : Prop :=
  ∀ (s t : State) (op : PortOp) (rest : List PortOp), s.inputs = op :: rest → (∀ b, op ≠ .streamByte b) →
    op ≠ .reset → step s = .next t → t.rx = s.rx ∧ t.inputs = rest

/-- If a step on anything but reset answers a next state, either neither trace changes, or DEC gains exactly one
event at its end and REQ gains at most one at its end. Nothing is dropped, reordered or merged (the spec's
decision D26). (10_state.md R31, 44_passthrough_commands.md R184, 92_eei_decisions.md D26.) -/
def Obligations.TracesAppendOnly : Prop :=
  ∀ s t : State, (∀ rest, s.inputs ≠ .reset :: rest) → step s = .next t →
    (t.decTrace = s.decTrace ∧ t.reqTrace = s.reqTrace) ∨
      ((∃ d, t.decTrace = s.decTrace ++ [d]) ∧
        (t.reqTrace = s.reqTrace ∨ ∃ r, t.reqTrace = s.reqTrace ++ [r]))

/-- It holds after reset, and every step keeps, that REQ is the list of the requests that the decoded commands on
DEC ask for by the table of R173 to R183 (Safety.requestOf, written apart from the meanings), in order: no
request is lost, added, reordered or caused by anything but a decoded command. The table's readings and the
traces are in part the spec's own decisions (log 14): short payloads D6, booleans D8, Reset under four bytes
D16, what Echo returns D17, a DEC event for every dispatch D24, no loss or reordering D26, fields passed on
unchecked D30. (44_passthrough_commands.md R170, 44_passthrough_commands.md R172, 44_passthrough_commands.md
R173, 44_passthrough_commands.md R184, 92_eei_decisions.md D6, D8, D16, D17, D24, D26, D30.) -/
def Obligations.RequestsFollowDecoded : Prop :=
  (∀ cfg : Config, (State.resetFor cfg).reqTrace =
      (State.resetFor cfg).decTrace.filterMap (Safety.requestOf cfg)) ∧
    ∀ s t : State, s.reqTrace = s.decTrace.filterMap (Safety.requestOf s.cfg) → step s = .next t →
      t.reqTrace = t.decTrace.filterMap (Safety.requestOf t.cfg)

/-- A step that answers a next state either takes a reset operation and leaves REQ empty, or appends to REQ, and if
HardReset is among what it appends then it appends that one event alone and has decoded a command whose id is
Reset's and whose payload begins with DE AD F0 00. This holds for every step, whether or not a HardReset is on
REQ already: no other command, no array operation and no read appends one, and no step appends two. That a
payload of under four bytes causes none, even under ZeroFill, is the spec's own decision D16 (log 14).
(44_passthrough_commands.md R173, 60_exceptions.md R204, 60_exceptions.md R210, 70_reset_and_hazards.md R220,
92_eei_decisions.md D16.) -/
def Obligations.HardResetOnlyByMagic : Prop :=
  ∀ s t : State, step s = .next t →
    ((∃ rest, s.inputs = .reset :: rest) ∧ t.reqTrace = []) ∨
      ∃ added, t.reqTrace = s.reqTrace ++ added ∧
        (Request.hardReset ∈ added → added = [.hardReset] ∧
          ∃ d, t.decTrace = s.decTrace ++ [d] ∧ d.cmd = s.cfg.cmdIds.id .reset ∧
            d.payload.take 4 = [0xDE, 0xAD, 0xF0, 0x00])

/-- For every two states that differ at most in bytes of buf that no rule reads (those at positions >= min(idx,
MAX_BUF_LEN) while a frame is being received, any of them otherwise): their steps are both refused alike, or
both answer next states that agree in the same way. So the values of those bytes at reset and between frames
(the model's choice, log 7) decide nothing. (10_state.md R28.) -/
def Obligations.StaleBufferUnobservable : Prop :=
  ∀ s t : State, Safety.SameUpToStale s t → Safety.SameOutcome (step s) (step t)
end

