-- ==== Sys2Proof/Laws/State.lean ====
section
/-! SUPPORT. One lemma per field for each named update of the state and of the decoder registers. -/

namespace Sys2Proof.Laws

open Sys2Proof.Machine

@[simp] theorem emitDec_cfg (s : State) (e : Decoded) : (s.emitDec e).cfg = s.cfg := rfl
@[simp] theorem emitDec_rx (s : State) (e : Decoded) : (s.emitDec e).rx = s.rx := rfl
@[simp] theorem emitDec_array (s : State) (e : Decoded) : (s.emitDec e).array = s.array := rfl
@[simp] theorem emitDec_decTrace (s : State) (e : Decoded) : (s.emitDec e).decTrace = s.decTrace ++ [e] := rfl
@[simp] theorem emitDec_reqTrace (s : State) (e : Decoded) : (s.emitDec e).reqTrace = s.reqTrace := rfl
@[simp] theorem emitDec_readTrace (s : State) (e : Decoded) : (s.emitDec e).readTrace = s.readTrace := rfl
@[simp] theorem emitDec_inputs (s : State) (e : Decoded) : (s.emitDec e).inputs = s.inputs := rfl

@[simp] theorem emitReq_cfg (s : State) (e : Request) : (s.emitReq e).cfg = s.cfg := rfl
@[simp] theorem emitReq_rx (s : State) (e : Request) : (s.emitReq e).rx = s.rx := rfl
@[simp] theorem emitReq_array (s : State) (e : Request) : (s.emitReq e).array = s.array := rfl
@[simp] theorem emitReq_decTrace (s : State) (e : Request) : (s.emitReq e).decTrace = s.decTrace := rfl
@[simp] theorem emitReq_reqTrace (s : State) (e : Request) : (s.emitReq e).reqTrace = s.reqTrace ++ [e] := rfl
@[simp] theorem emitReq_readTrace (s : State) (e : Request) : (s.emitReq e).readTrace = s.readTrace := rfl
@[simp] theorem emitReq_inputs (s : State) (e : Request) : (s.emitReq e).inputs = s.inputs := rfl

@[simp] theorem returnRead_cfg (s : State) (r : ReadResult) : (s.returnRead r).cfg = s.cfg := rfl
@[simp] theorem returnRead_rx (s : State) (r : ReadResult) : (s.returnRead r).rx = s.rx := rfl
@[simp] theorem returnRead_array (s : State) (r : ReadResult) : (s.returnRead r).array = s.array := rfl
@[simp] theorem returnRead_decTrace (s : State) (r : ReadResult) : (s.returnRead r).decTrace = s.decTrace := rfl
@[simp] theorem returnRead_reqTrace (s : State) (r : ReadResult) : (s.returnRead r).reqTrace = s.reqTrace := rfl
@[simp] theorem returnRead_readTrace (s : State) (r : ReadResult) : (s.returnRead r).readTrace = s.readTrace ++ [r] := rfl
@[simp] theorem returnRead_inputs (s : State) (r : ReadResult) : (s.returnRead r).inputs = s.inputs := rfl

@[simp] theorem withRx_cfg (s : State) (rx : StreamRegs) : (s.withRx rx).cfg = s.cfg := rfl
@[simp] theorem withRx_rx (s : State) (rx : StreamRegs) : (s.withRx rx).rx = rx := rfl
@[simp] theorem withRx_array (s : State) (rx : StreamRegs) : (s.withRx rx).array = s.array := rfl
@[simp] theorem withRx_decTrace (s : State) (rx : StreamRegs) : (s.withRx rx).decTrace = s.decTrace := rfl
@[simp] theorem withRx_reqTrace (s : State) (rx : StreamRegs) : (s.withRx rx).reqTrace = s.reqTrace := rfl
@[simp] theorem withRx_readTrace (s : State) (rx : StreamRegs) : (s.withRx rx).readTrace = s.readTrace := rfl
@[simp] theorem withRx_inputs (s : State) (rx : StreamRegs) : (s.withRx rx).inputs = s.inputs := rfl

@[simp] theorem resetStep_cfg (s : State) : s.resetStep.cfg = s.cfg := rfl
@[simp] theorem resetStep_rx (s : State) : s.resetStep.rx = .atReset s.cfg := rfl
@[simp] theorem resetStep_array (s : State) : s.resetStep.array = [] := rfl
@[simp] theorem resetStep_decTrace (s : State) : s.resetStep.decTrace = [] := rfl
@[simp] theorem resetStep_reqTrace (s : State) : s.resetStep.reqTrace = [] := rfl
@[simp] theorem resetStep_readTrace (s : State) : s.resetStep.readTrace = [] := rfl
@[simp] theorem resetStep_inputs (s : State) : s.resetStep.inputs = s.inputs := rfl

@[simp] theorem updateEntry_cfg (s : State) (l e : Byte) (f : Entry → Entry) : (s.updateEntry l e f).cfg = s.cfg := rfl
@[simp] theorem updateEntry_rx (s : State) (l e : Byte) (f : Entry → Entry) : (s.updateEntry l e f).rx = s.rx := rfl
@[simp] theorem updateEntry_array (s : State) (l e : Byte) (f : Entry → Entry) :
    (s.updateEntry l e f).array = s.array.update s.cfg l e f := rfl
@[simp] theorem updateEntry_decTrace (s : State) (l e : Byte) (f : Entry → Entry) : (s.updateEntry l e f).decTrace = s.decTrace := rfl
@[simp] theorem updateEntry_reqTrace (s : State) (l e : Byte) (f : Entry → Entry) : (s.updateEntry l e f).reqTrace = s.reqTrace := rfl
@[simp] theorem updateEntry_readTrace (s : State) (l e : Byte) (f : Entry → Entry) : (s.updateEntry l e f).readTrace = s.readTrace := rfl
@[simp] theorem updateEntry_inputs (s : State) (l e : Byte) (f : Entry → Entry) : (s.updateEntry l e f).inputs = s.inputs := rfl

@[simp] theorem setColor_cfg (s : State) (l e : Byte) (c : Color) : (s.setColor l e c).cfg = s.cfg := rfl
@[simp] theorem setColor_rx (s : State) (l e : Byte) (c : Color) : (s.setColor l e c).rx = s.rx := rfl
@[simp] theorem setColor_decTrace (s : State) (l e : Byte) (c : Color) : (s.setColor l e c).decTrace = s.decTrace := rfl
@[simp] theorem setColor_reqTrace (s : State) (l e : Byte) (c : Color) : (s.setColor l e c).reqTrace = s.reqTrace := rfl
@[simp] theorem setColor_readTrace (s : State) (l e : Byte) (c : Color) : (s.setColor l e c).readTrace = s.readTrace := rfl
@[simp] theorem setColor_inputs (s : State) (l e : Byte) (c : Color) : (s.setColor l e c).inputs = s.inputs := rfl

@[simp] theorem setEnabled_cfg (s : State) (l e : Byte) (v : Bool) : (s.setEnabled l e v).cfg = s.cfg := rfl
@[simp] theorem setEnabled_rx (s : State) (l e : Byte) (v : Bool) : (s.setEnabled l e v).rx = s.rx := rfl
@[simp] theorem setEnabled_decTrace (s : State) (l e : Byte) (v : Bool) : (s.setEnabled l e v).decTrace = s.decTrace := rfl
@[simp] theorem setEnabled_reqTrace (s : State) (l e : Byte) (v : Bool) : (s.setEnabled l e v).reqTrace = s.reqTrace := rfl
@[simp] theorem setEnabled_readTrace (s : State) (l e : Byte) (v : Bool) : (s.setEnabled l e v).readTrace = s.readTrace := rfl
@[simp] theorem setEnabled_inputs (s : State) (l e : Byte) (v : Bool) : (s.setEnabled l e v).inputs = s.inputs := rfl

@[simp] theorem toggleEnabled_cfg (s : State) (l e : Byte) : (s.toggleEnabled l e).cfg = s.cfg := rfl
@[simp] theorem toggleEnabled_rx (s : State) (l e : Byte) : (s.toggleEnabled l e).rx = s.rx := rfl
@[simp] theorem toggleEnabled_decTrace (s : State) (l e : Byte) : (s.toggleEnabled l e).decTrace = s.decTrace := rfl
@[simp] theorem toggleEnabled_reqTrace (s : State) (l e : Byte) : (s.toggleEnabled l e).reqTrace = s.reqTrace := rfl
@[simp] theorem toggleEnabled_readTrace (s : State) (l e : Byte) : (s.toggleEnabled l e).readTrace = s.readTrace := rfl
@[simp] theorem toggleEnabled_inputs (s : State) (l e : Byte) : (s.toggleEnabled l e).inputs = s.inputs := rfl

@[simp] theorem setUnderglowPair_cfg (s : State) (l : Byte) (c : Color) : (s.setUnderglowPair l c).cfg = s.cfg := rfl
@[simp] theorem setUnderglowPair_rx (s : State) (l : Byte) (c : Color) : (s.setUnderglowPair l c).rx = s.rx := rfl
@[simp] theorem setUnderglowPair_decTrace (s : State) (l : Byte) (c : Color) : (s.setUnderglowPair l c).decTrace = s.decTrace := rfl
@[simp] theorem setUnderglowPair_reqTrace (s : State) (l : Byte) (c : Color) : (s.setUnderglowPair l c).reqTrace = s.reqTrace := rfl
@[simp] theorem setUnderglowPair_readTrace (s : State) (l : Byte) (c : Color) : (s.setUnderglowPair l c).readTrace = s.readTrace := rfl
@[simp] theorem setUnderglowPair_inputs (s : State) (l : Byte) (c : Color) : (s.setUnderglowPair l c).inputs = s.inputs := rfl

@[simp] theorem takeCommand_dst (rx : StreamRegs) (b : Byte) : (rx.takeCommand b).dst = .awLen := rfl
@[simp] theorem takeCommand_cmd (rx : StreamRegs) (b : Byte) : (rx.takeCommand b).cmd = b := rfl
@[simp] theorem takeCommand_len (rx : StreamRegs) (b : Byte) : (rx.takeCommand b).len = rx.len := rfl
@[simp] theorem takeCommand_idx (rx : StreamRegs) (b : Byte) : (rx.takeCommand b).idx = 0x00 := rfl
@[simp] theorem takeCommand_buf (rx : StreamRegs) (b : Byte) : (rx.takeCommand b).buf = rx.buf := rfl

@[simp] theorem takeLength_dst (rx : StreamRegs) (b : Byte) :
    (rx.takeLength b).dst = if b = 0x00 then .awCmd else .awPay := rfl
@[simp] theorem takeLength_cmd (rx : StreamRegs) (b : Byte) : (rx.takeLength b).cmd = rx.cmd := rfl
@[simp] theorem takeLength_len (rx : StreamRegs) (b : Byte) : (rx.takeLength b).len = b := rfl
@[simp] theorem takeLength_idx (rx : StreamRegs) (b : Byte) : (rx.takeLength b).idx = rx.idx := rfl
@[simp] theorem takeLength_buf (rx : StreamRegs) (b : Byte) : (rx.takeLength b).buf = rx.buf := rfl

@[simp] theorem storePayload_dst (rx : StreamRegs) (n : Nat) (b : Byte) : (rx.storePayload n b).dst = rx.dst := rfl
@[simp] theorem storePayload_cmd (rx : StreamRegs) (n : Nat) (b : Byte) : (rx.storePayload n b).cmd = rx.cmd := rfl
@[simp] theorem storePayload_len (rx : StreamRegs) (n : Nat) (b : Byte) : (rx.storePayload n b).len = rx.len := rfl
@[simp] theorem storePayload_idx (rx : StreamRegs) (n : Nat) (b : Byte) :
    (rx.storePayload n b).idx = rx.idx + 0x01 := rfl
@[simp] theorem storePayload_buf (rx : StreamRegs) (n : Nat) (b : Byte) :
    (rx.storePayload n b).buf = if rx.idx.toNat < n then rx.buf.set rx.idx.toNat b else rx.buf := rfl

@[simp] theorem takePayload_dst (rx : StreamRegs) (n : Nat) (b : Byte) :
    (rx.takePayload n b).dst = if rx.idx + 0x01 = rx.len then .awCmd else .awPay := rfl
@[simp] theorem takePayload_cmd (rx : StreamRegs) (n : Nat) (b : Byte) : (rx.takePayload n b).cmd = rx.cmd := rfl
@[simp] theorem takePayload_len (rx : StreamRegs) (n : Nat) (b : Byte) : (rx.takePayload n b).len = rx.len := rfl
@[simp] theorem takePayload_idx (rx : StreamRegs) (n : Nat) (b : Byte) :
    (rx.takePayload n b).idx = rx.idx + 0x01 := rfl
@[simp] theorem takePayload_buf (rx : StreamRegs) (n : Nat) (b : Byte) :
    (rx.takePayload n b).buf = if rx.idx.toNat < n then rx.buf.set rx.idx.toNat b else rx.buf := rfl

@[simp] theorem recover_dst (rx : StreamRegs) : rx.recover.dst = .awCmd := rfl
@[simp] theorem recover_cmd (rx : StreamRegs) : rx.recover.cmd = rx.cmd := rfl
@[simp] theorem recover_len (rx : StreamRegs) : rx.recover.len = rx.len := rfl
@[simp] theorem recover_idx (rx : StreamRegs) : rx.recover.idx = 0x00 := rfl
@[simp] theorem recover_buf (rx : StreamRegs) : rx.recover.buf = rx.buf := rfl

end Sys2Proof.Laws
end

