-- ==== Sys2Proof/Laws/Memory.lean ====
section
/-! SUPPORT. The indicator array as a list: what a write changes, and that it keeps the canonical form. -/

namespace Sys2Proof.Laws

open Sys2Proof.Machine

@[simp] theorem read_nil (a : Nat) : Memory.read [] a = Entry.initial := rfl

theorem read_cons (x : Nat × Entry) (m : Memory) (a : Nat) :
    Memory.read (x :: m) a = if a = x.1 then x.2 else Memory.read m a := rfl

theorem read_of_not_mem {m : Memory} {a : Nat} (h : ∀ x ∈ m, x.1 ≠ a) : m.read a = Entry.initial := by
  induction m with
  | nil => rfl
  | cons x m ih =>
    rw [read_cons, if_neg (fun e => h x (by simp) e.symm)]
    exact ih fun y hy => h y (by simp [hy])

theorem mem_erase {m : Memory} {a : Nat} {x : Nat × Entry} : x ∈ m.erase a ↔ x ∈ m ∧ x.1 ≠ a := by
  simp [Memory.erase]

theorem read_erase (m : Memory) (a b : Nat) :
    (m.erase a).read b = if b = a then Entry.initial else m.read b := by
  split
  · next h => subst h; exact read_of_not_mem fun x hx => (mem_erase.1 hx).2
  · next h =>
    induction m with
    | nil => rfl
    | cons x m ih =>
      have hm : Memory.read (Memory.erase m a) b = Memory.read m b := ih
      by_cases hx : x.1 = a
      · rw [read_cons, if_neg (fun e => h (e.trans hx)), ← hm]
        simp [Memory.erase, hx]
      · rw [read_cons, ← hm]
        simp [Memory.erase, hx, read_cons]

theorem read_insert {m : Memory} {a : Nat} (v : Entry) (h : ∀ x ∈ m, x.1 ≠ a) (b : Nat) :
    (Memory.insert a v m).read b = if b = a then v else m.read b := by
  induction m with
  | nil => rfl
  | cons x m ih =>
    have hx : x.1 ≠ a := h x (by simp)
    simp only [Memory.insert]
    split
    · rfl
    · rw [read_cons, read_cons, ih fun y hy => h y (by simp [hy])]
      by_cases hb : b = a
      · subst hb; simp [Ne.symm hx]
      · simp [hb]

/-- A write changes the entry at its address and no other. -/
theorem read_write (m : Memory) (a b : Nat) (v : Entry) :
    (m.write a v).read b = if b = a then v else m.read b := by
  unfold Memory.write
  split
  · next h => rw [read_erase, h]
  · rw [read_insert v (fun x hx => (mem_erase.1 hx).2), read_erase]
    split <;> rfl

@[simp] theorem read_write_same (m : Memory) (a : Nat) (v : Entry) : (m.write a v).read a = v := by
  simp [read_write]

theorem read_write_other (m : Memory) {a b : Nat} (v : Entry) (h : b ≠ a) : (m.write a v).read b = m.read b := by
  simp [read_write, h]

theorem mem_insert {m : Memory} {a : Nat} {v : Entry} {x : Nat × Entry} :
    x ∈ Memory.insert a v m ↔ x = (a, v) ∨ x ∈ m := by
  induction m with
  | nil => simp [Memory.insert]
  | cons y m ih =>
    simp only [Memory.insert]
    split
    · simp
    · simp only [List.mem_cons, ih]; tauto

theorem mem_write {m : Memory} {a : Nat} {v : Entry} {x : Nat × Entry} (h : x ∈ m.write a v) :
    x = (a, v) ∨ x ∈ m := by
  unfold Memory.write at h
  split at h
  · exact .inr (mem_erase.1 h).1
  · exact (mem_insert.1 h).imp_right fun hx => (mem_erase.1 hx).1

theorem erase_sorted {m : Memory} (a : Nat) (h : m.Pairwise fun x y => x.1 < y.1) :
    (m.erase a).Pairwise fun x y => x.1 < y.1 := h.filter _

theorem insert_sorted {m : Memory} {a : Nat} (v : Entry) (h : m.Pairwise fun x y => x.1 < y.1)
    (ha : ∀ x ∈ m, x.1 ≠ a) : (Memory.insert a v m).Pairwise fun x y => x.1 < y.1 := by
  induction m with
  | nil => simp [Memory.insert]
  | cons x m ih =>
    obtain ⟨hx, hm⟩ := List.pairwise_cons.1 h
    have hxa : x.1 ≠ a := ha x (by simp)
    simp only [Memory.insert]
    split
    · next hlt =>
      refine List.pairwise_cons.2 ⟨fun y hy => ?_, h⟩
      rcases List.mem_cons.1 hy with rfl | hy
      · exact hlt
      · exact Nat.lt_trans hlt (hx y hy)
    · next hge =>
      refine List.pairwise_cons.2 ⟨fun y hy => ?_, ih hm fun y hy => ha y (by simp [hy])⟩
      rcases mem_insert.1 hy with rfl | hy
      · show x.1 < a
        omega
      · exact hx y hy

/-- Every write keeps the canonical form. -/
theorem write_wf {m : Memory} (a : Nat) (v : Entry) (h : m.wf) : (m.write a v).wf := by
  refine ⟨?_, fun x hx => ?_⟩
  · unfold Memory.write
    split
    · exact erase_sorted a h.1
    · exact insert_sorted v (erase_sorted a h.1) fun x hx => (mem_erase.1 hx).2
  · unfold Memory.write at hx
    split at hx
    · exact h.2 x (mem_erase.1 hx).1
    · next hv =>
      rcases mem_insert.1 hx with rfl | hx
      · exact hv
      · exact h.2 x (mem_erase.1 hx).1

/-- The array after reset is canonical. -/
theorem reset_array_wf : State.reset.array.wf := by decide

/-- Two pairs of bytes have one key only if they are equal (spec/10_state.md R30: entries do not alias). -/
theorem address_injective {l e l' e' : Byte} (h : address l e = address l' e') : l = l' ∧ e = e' := by
  unfold address at h
  have h1 := e.isLt
  have h2 := e'.isLt
  exact ⟨BitVec.eq_of_toNat_eq (by omega), BitVec.eq_of_toNat_eq (by omega)⟩

theorem address_div (l e : Byte) : address l e / 256 = l.toNat := by
  unfold address
  have h1 := e.isLt
  omega

theorem address_mod (l e : Byte) : address l e % 256 = e.toNat := by
  unfold address
  have h1 := e.isLt
  omega

end Sys2Proof.Laws
end

