-- ==== Sys2Proof/Laws/Ops.lean ====
section
/-! SUPPORT. For each shared operation, one lemma that says everything it can do. -/

namespace Sys2Proof.Laws

open Sys2Proof.Machine

/-- `update` writes the entry at a valid address, and nothing else. -/
theorem update_cases (cfg : Config) (m : Memory) (l e : Byte) (f : Entry → Entry) :
    (Config.valid cfg l e = true ∧ m.update cfg l e f = m.write (address l e) (f (m.read (address l e)))) ∨
      (Config.valid cfg l e = false ∧ m.update cfg l e f = m) := by
  unfold Memory.update
  cases h : Config.valid cfg l e <;> simp

/-- What every address reads after `update`. -/
theorem read_update (cfg : Config) (m : Memory) (l e : Byte) (f : Entry → Entry) (a : Nat) :
    (m.update cfg l e f).read a =
      if Config.valid cfg l e = true ∧ a = address l e then f (m.read (address l e)) else m.read a := by
  rcases update_cases cfg m l e f with ⟨hv, h⟩ | ⟨hv, h⟩ <;> rw [h] <;> simp [hv, read_write]

theorem update_wf (cfg : Config) {m : Memory} (l e : Byte) (f : Entry → Entry) (h : m.wf) : (m.update cfg l e f).wf := by
  rcases update_cases cfg m l e f with ⟨-, h'⟩ | ⟨-, h'⟩ <;> rw [h']
  · exact write_wf _ _ h
  · exact h

/-- A write keeps the array within its bounds (spec/20_memory.md R42). -/
theorem update_arrayOk {cfg : Config} {m : Memory} (l e : Byte) (f : Entry → Entry) (h : Safety.ArrayOk cfg m) :
    Safety.ArrayOk cfg (m.update cfg l e f) := by
  refine ⟨update_wf cfg l e f h.1, fun x hx => ?_⟩
  rcases update_cases cfg m l e f with ⟨hv, h'⟩ | ⟨-, h'⟩ <;> rw [h'] at hx
  · rcases mem_write hx with rfl | hx
    · simp only [Config.valid, Bool.and_eq_true, decide_eq_true_eq] at hv
      simpa only [address_div, address_mod] using hv
    · exact h.2 x hx
  · exact h.2 x hx

theorem update_of_invalid {cfg : Config} {l e : Byte} (m : Memory) (f : Entry → Entry)
    (h : Config.valid cfg l e = false) : m.update cfg l e f = m := by
  simp [Memory.update, h]

/-- A write port operation changes the array and nothing else: the four writes of spec/42_indicator_array.md as updates
of the array. -/
theorem setColor_eq (s : State) (l e : Byte) (c : Color) :
    s.setColor l e c = { s with array := s.array.update s.cfg l e fun x => { x with color := c } } := rfl

theorem setEnabled_eq (s : State) (l e : Byte) (v : Bool) :
    s.setEnabled l e v = { s with array := s.array.update s.cfg l e fun x => { x with enabled := v } } := rfl

theorem toggleEnabled_eq (s : State) (l e : Byte) :
    s.toggleEnabled l e = { s with array := s.array.update s.cfg l e fun x => { x with enabled := !x.enabled } } := rfl

theorem setUnderglowPair_eq (s : State) (l : Byte) (c : Color) :
    s.setUnderglowPair l c = { s with
      array := (s.array.update s.cfg l s.cfg.ugLeft fun _ => { enabled := true, color := c }).update s.cfg l
        s.cfg.ugRight fun _ => { enabled := true, color := c } } := rfl

/-- `request` emits its request on `REQ`, or does nothing. -/
theorem request_cases (s : State) (c : CommandName) (p : List Byte) (r : Request) :
    (skipped s.cfg c p = false ∧ s.request c p r = { s with reqTrace := s.reqTrace ++ [r] }) ∨
      (skipped s.cfg c p = true ∧ s.request c p r = s) := by
  unfold State.request
  cases h : skipped s.cfg c p <;> simp [State.emitReq]

/-- The registers after a payload byte that does not complete the frame (spec/40_stream_decoder.md R104). -/
theorem takePayload_incomplete {rx : StreamRegs} {n : Nat} {b : Byte} (h : rx.idx + 0x01 ≠ rx.len) :
    rx.takePayload n b = { rx with
      dst := .awPay
      idx := rx.idx + 0x01
      buf := if rx.idx.toNat < n then rx.buf.set rx.idx.toNat b else rx.buf } :=
  congrArg (fun d => ({ rx.storePayload n b with dst := d } : StreamRegs)) (if_neg h)

/-- The registers after the payload byte that completes the frame (spec/40_stream_decoder.md R105). -/
theorem takePayload_complete {rx : StreamRegs} {n : Nat} {b : Byte} (h : rx.idx + 0x01 = rx.len) :
    rx.takePayload n b = { rx with
      dst := .awCmd
      idx := rx.idx + 0x01
      buf := if rx.idx.toNat < n then rx.buf.set rx.idx.toNat b else rx.buf } :=
  congrArg (fun d => ({ rx.storePayload n b with dst := d } : StreamRegs)) (if_pos h)

/-- A payload is ignored exactly when it is short and `SHORT_PAYLOAD` is `Ignore`. -/
theorem skipped_iff (cfg : Config) (c : CommandName) (p : List Byte) :
    skipped cfg c p = true ↔ p.length < need cfg.variant c ∧ cfg.shortPayload = .ignore := by
  simp [skipped, short]

theorem skipped_of_short {cfg : Config} {c : CommandName} {p : List Byte} (h : p.length < need cfg.variant c)
    (hi : cfg.shortPayload = .ignore) : skipped cfg c p = true :=
  (skipped_iff cfg c p).2 ⟨h, hi⟩

theorem not_skipped {cfg : Config} {c : CommandName} {p : List Byte}
    (h : need cfg.variant c ≤ p.length ∨ cfg.shortPayload = .zeroFill) : skipped cfg c p = false := by
  rw [← Bool.not_eq_true, skipped_iff]
  rintro ⟨hs, hi⟩
  rcases h with h | h
  · omega
  · rw [h] at hi; cases hi

/-- The magic test, spelled out (spec/44_passthrough_commands.md R173). -/
theorem magicMatches_iff (p : List Byte) : magicMatches p = true ↔ p.take 4 = [0xDE, 0xAD, 0xF0, 0x00] := by
  unfold magicMatches
  exact decide_eq_true_iff

/-- The lookup by id finds only a command that has the id. -/
theorem lookupId_some {cfg : Config} {id : Byte} {c : CommandName} (h : lookupId cfg id = some c) :
    cfg.cmdIds.id c = id := by
  simpa using List.find?_some h

/-- A dispatch is the command's rule after its `DEC` event, or the `DEC` event alone. -/
theorem dispatch_cases (src : Source) (id : Byte) (p : List Byte) (s : State) :
    (∃ c, lookupId s.cfg id = some c ∧
        dispatch src id p s = exec (Instr.ofName c src p) (s.emitDec { src := src, cmd := id, payload := p })) ∨
      (lookupId s.cfg id = none ∧ dispatch src id p s = .next (s.emitDec { src := src, cmd := id, payload := p })) := by
  unfold dispatch decodeCommand
  cases h : lookupId s.cfg id <;> simp

/-- A step performs the operation at the head of `inputs`, waits when there is none, or refuses the configuration. -/
theorem step_cases (s : State) :
    (s.cfg.wf = false ∧ step s = .refused .invalidConfig) ∨
      (s.cfg.wf = true ∧ s.inputs = [] ∧ step s = .next s) ∨
        ∃ op rest, s.cfg.wf = true ∧ s.inputs = op :: rest ∧ step s = perform op { s with inputs := rest } := by
  unfold step nextOperation
  cases hw : s.cfg.wf
  · exact .inl ⟨rfl, by simp⟩
  · cases hi : s.inputs with
    | nil => exact .inr (.inl ⟨rfl, rfl, by simp⟩)
    | cons op rest => exact .inr (.inr ⟨op, rest, rfl, rfl, by simp⟩)

/-- The step at a state whose next operation is `op`. -/
theorem step_of_inputs {s : State} {op : PortOp} {rest : List PortOp} (hw : s.cfg.wf = true)
    (hi : s.inputs = op :: rest) : step s = perform op { s with inputs := rest } := by
  simp [step, nextOperation, hw, hi]

end Sys2Proof.Laws
end

