-- ==== Sys2Proof/Laws/PerInstr.lean ====
section
/-! SUPPORT. Statements about every command as syntax, one lemma per constructor. -/

/-- A command is rebuilt from its name, path and payload. -/
def Sys2Proof.Laws.Rebuild.Statement (i : Sys2Proof.Instr) : Prop :=
  Sys2Proof.Instr.ofName i.name i.src i.payload = i

/-- The frame of a command begins with its id, whatever its path (spec/30_encoding.md R61, R63). -/
def Sys2Proof.Laws.EncodeHead.Statement (i : Sys2Proof.Instr) : Prop :=
  ∀ cfg : Sys2Proof.Config, (Sys2Proof.encode cfg i).head? = some (cfg.cmdIds.id i.name)

theorem Sys2Proof.Laws.Rebuild.reset (src : Sys2Proof.Source) (p : List Sys2Proof.Byte) :
    Sys2Proof.Laws.Rebuild.Statement (.reset src p) := rfl

theorem Sys2Proof.Laws.Rebuild.setMode (src : Sys2Proof.Source) (p : List Sys2Proof.Byte) :
    Sys2Proof.Laws.Rebuild.Statement (.setMode src p) := rfl

theorem Sys2Proof.Laws.Rebuild.toggleMatrix (src : Sys2Proof.Source) (p : List Sys2Proof.Byte) :
    Sys2Proof.Laws.Rebuild.Statement (.toggleMatrix src p) := rfl

theorem Sys2Proof.Laws.Rebuild.setMatrixColor (src : Sys2Proof.Source) (p : List Sys2Proof.Byte) :
    Sys2Proof.Laws.Rebuild.Statement (.setMatrixColor src p) := rfl

theorem Sys2Proof.Laws.Rebuild.toggleIndicator (src : Sys2Proof.Source) (p : List Sys2Proof.Byte) :
    Sys2Proof.Laws.Rebuild.Statement (.toggleIndicator src p) := rfl

theorem Sys2Proof.Laws.Rebuild.setIndicatorColor (src : Sys2Proof.Source) (p : List Sys2Proof.Byte) :
    Sys2Proof.Laws.Rebuild.Statement (.setIndicatorColor src p) := rfl

theorem Sys2Proof.Laws.Rebuild.enableIndicator (src : Sys2Proof.Source) (p : List Sys2Proof.Byte) :
    Sys2Proof.Laws.Rebuild.Statement (.enableIndicator src p) := rfl

theorem Sys2Proof.Laws.Rebuild.disableIndicator (src : Sys2Proof.Source) (p : List Sys2Proof.Byte) :
    Sys2Proof.Laws.Rebuild.Statement (.disableIndicator src p) := rfl

theorem Sys2Proof.Laws.Rebuild.activateLayer (src : Sys2Proof.Source) (p : List Sys2Proof.Byte) :
    Sys2Proof.Laws.Rebuild.Statement (.activateLayer src p) := rfl

theorem Sys2Proof.Laws.Rebuild.setSpeed (src : Sys2Proof.Source) (p : List Sys2Proof.Byte) :
    Sys2Proof.Laws.Rebuild.Statement (.setSpeed src p) := rfl

theorem Sys2Proof.Laws.Rebuild.setMuteStatus (src : Sys2Proof.Source) (p : List Sys2Proof.Byte) :
    Sys2Proof.Laws.Rebuild.Statement (.setMuteStatus src p) := rfl

theorem Sys2Proof.Laws.Rebuild.endCall (src : Sys2Proof.Source) (p : List Sys2Proof.Byte) :
    Sys2Proof.Laws.Rebuild.Statement (.endCall src p) := rfl

theorem Sys2Proof.Laws.Rebuild.echo (src : Sys2Proof.Source) (p : List Sys2Proof.Byte) :
    Sys2Proof.Laws.Rebuild.Statement (.echo src p) := rfl

theorem Sys2Proof.Laws.Rebuild.connect (src : Sys2Proof.Source) (p : List Sys2Proof.Byte) :
    Sys2Proof.Laws.Rebuild.Statement (.connect src p) := rfl

theorem Sys2Proof.Laws.Rebuild.disconnect (src : Sys2Proof.Source) (p : List Sys2Proof.Byte) :
    Sys2Proof.Laws.Rebuild.Statement (.disconnect src p) := rfl

theorem Sys2Proof.Laws.EncodeHead.reset (src : Sys2Proof.Source) (p : List Sys2Proof.Byte) :
    Sys2Proof.Laws.EncodeHead.Statement (.reset src p) := fun _ => by cases src <;> rfl

theorem Sys2Proof.Laws.EncodeHead.setMode (src : Sys2Proof.Source) (p : List Sys2Proof.Byte) :
    Sys2Proof.Laws.EncodeHead.Statement (.setMode src p) := fun _ => by cases src <;> rfl

theorem Sys2Proof.Laws.EncodeHead.toggleMatrix (src : Sys2Proof.Source) (p : List Sys2Proof.Byte) :
    Sys2Proof.Laws.EncodeHead.Statement (.toggleMatrix src p) := fun _ => by cases src <;> rfl

theorem Sys2Proof.Laws.EncodeHead.setMatrixColor (src : Sys2Proof.Source) (p : List Sys2Proof.Byte) :
    Sys2Proof.Laws.EncodeHead.Statement (.setMatrixColor src p) := fun _ => by cases src <;> rfl

theorem Sys2Proof.Laws.EncodeHead.toggleIndicator (src : Sys2Proof.Source) (p : List Sys2Proof.Byte) :
    Sys2Proof.Laws.EncodeHead.Statement (.toggleIndicator src p) := fun _ => by cases src <;> rfl

theorem Sys2Proof.Laws.EncodeHead.setIndicatorColor (src : Sys2Proof.Source) (p : List Sys2Proof.Byte) :
    Sys2Proof.Laws.EncodeHead.Statement (.setIndicatorColor src p) := fun _ => by cases src <;> rfl

theorem Sys2Proof.Laws.EncodeHead.enableIndicator (src : Sys2Proof.Source) (p : List Sys2Proof.Byte) :
    Sys2Proof.Laws.EncodeHead.Statement (.enableIndicator src p) := fun _ => by cases src <;> rfl

theorem Sys2Proof.Laws.EncodeHead.disableIndicator (src : Sys2Proof.Source) (p : List Sys2Proof.Byte) :
    Sys2Proof.Laws.EncodeHead.Statement (.disableIndicator src p) := fun _ => by cases src <;> rfl

theorem Sys2Proof.Laws.EncodeHead.activateLayer (src : Sys2Proof.Source) (p : List Sys2Proof.Byte) :
    Sys2Proof.Laws.EncodeHead.Statement (.activateLayer src p) := fun _ => by cases src <;> rfl

theorem Sys2Proof.Laws.EncodeHead.setSpeed (src : Sys2Proof.Source) (p : List Sys2Proof.Byte) :
    Sys2Proof.Laws.EncodeHead.Statement (.setSpeed src p) := fun _ => by cases src <;> rfl

theorem Sys2Proof.Laws.EncodeHead.setMuteStatus (src : Sys2Proof.Source) (p : List Sys2Proof.Byte) :
    Sys2Proof.Laws.EncodeHead.Statement (.setMuteStatus src p) := fun _ => by cases src <;> rfl

theorem Sys2Proof.Laws.EncodeHead.endCall (src : Sys2Proof.Source) (p : List Sys2Proof.Byte) :
    Sys2Proof.Laws.EncodeHead.Statement (.endCall src p) := fun _ => by cases src <;> rfl

theorem Sys2Proof.Laws.EncodeHead.echo (src : Sys2Proof.Source) (p : List Sys2Proof.Byte) :
    Sys2Proof.Laws.EncodeHead.Statement (.echo src p) := fun _ => by cases src <;> rfl

theorem Sys2Proof.Laws.EncodeHead.connect (src : Sys2Proof.Source) (p : List Sys2Proof.Byte) :
    Sys2Proof.Laws.EncodeHead.Statement (.connect src p) := fun _ => by cases src <;> rfl

theorem Sys2Proof.Laws.EncodeHead.disconnect (src : Sys2Proof.Source) (p : List Sys2Proof.Byte) :
    Sys2Proof.Laws.EncodeHead.Statement (.disconnect src p) := fun _ => by cases src <;> rfl
end

