-- ==== Sys2Proof/Tests/Slice0.lean ====
section
/-! SUPPORT. Tests. Expected results are transcribed from the spec: the encodings of spec/30_encoding.md and the vectors
of spec/95_test_vectors.md, whose number each test names. The witnesses at the end show, for each statement with
hypotheses, a state and operands that meet them. -/

namespace Sys2Proof.Tests

open Sys2Proof.Machine

/-- A field of the next state, if there is one. -/
def result {α : Type} (o : Host.Outcome State Fault Refusal) (f : State → α) : Option α :=
  match o with
  | .next t => some (f t)
  | .fault _ => none
  | .refused _ => none

/-- The state after reset of a CFD with these operations offered. -/
def offering (cfg : Config) (ops : List PortOp) : State := { State.resetFor cfg with inputs := ops }

/-- In AwaitingPayloadByte after `q`, one byte before or at the end of a frame, with `b` offered. -/
def receiving (cfg : Config) (id len : Byte) (q : List Byte) (b : Byte) : State :=
  { offering cfg [.streamByte b] with
    rx := ⟨.awPay, id, len, BitVec.ofNat 8 q.length, (q ++ List.replicate (cfg.maxBufLen - q.length) 0xEE).take cfg.maxBufLen⟩ }

/-- `REF` with one parameter changed, as the vectors of spec/95_test_vectors.md change it. -/
def zeroFill : Config := { Config.ref with shortPayload := .zeroFill }
def single : Config := { Config.ref with variant := .singleLayer, maxBufLen := 4 }
def buf4 : Config := { Config.ref with maxBufLen := 4 }

/-! ## Well-formedness: an ill-formed record or command for each check -/

theorem test_ref_wf : Config.ref.wf = true := by decide
theorem test_no_layers : { Config.ref with maxLayers := 0 }.wf = false := by decide
theorem test_many_layers : { Config.ref with maxLayers := 257 }.wf = false := by decide
theorem test_no_leds : { Config.ref with maxLeds := 0 }.wf = false := by decide
theorem test_many_leds : { Config.ref with maxLeds := 257 }.wf = false := by decide
theorem test_buf_three : { Config.ref with maxBufLen := 3 }.wf = false := by decide
theorem test_buf_six : { Config.ref with maxBufLen := 6 }.wf = false := by decide
theorem test_block_zero : { Config.ref with blockLen := 0 }.wf = false := by decide
theorem test_ids_clash : { Config.ref with cmdIds := { CmdIds.ref with echo := 0x0F } }.wf = false := by decide
theorem test_largest_wf : { Config.ref with maxLayers := 256, maxLeds := 256, blockLen := 1 }.wf = true := by decide
theorem test_stream_payload_too_long : (Instr.echo .stream [1, 2, 3, 4, 5, 6]).wf .ref = false := by decide
theorem test_block_payload_too_short : (Instr.echo .block [1, 2, 3, 4, 5, 6]).wf .ref = false := by decide
theorem test_config_refused : step (offering { Config.ref with blockLen := 0 } []) = .refused .invalidConfig := by rfl
theorem test_frame_length_refused : step (offering .ref [.blockFrame [0x0C, 0x00]]) = .refused .blockFrameLength := by
  rfl

/-! ## Decoding: every command's frame, written from spec/30_encoding.md R61, R63, R64 -/

theorem test_decode_reset : decode .ref .block [0x01, 0xDE, 0xAD, 0xF0, 0x00, 0x00, 0x00, 0x00] =
    .ok (.reset .block [0xDE, 0xAD, 0xF0, 0x00, 0, 0, 0], []) := by decide
theorem test_decode_setMode : decode .ref .stream [0x02, 0x02, 0x01, 0x07] = .ok (.setMode .stream [1, 7], []) := by decide
theorem test_decode_toggleMatrix : decode .ref .stream [0x03, 0x01, 0x00] = .ok (.toggleMatrix .stream [0], []) := by
  decide
theorem test_decode_setMatrixColor : decode .ref .stream [0x04, 0x04, 0x00, 0x10, 0x20, 0x30] =
    .ok (.setMatrixColor .stream [0x00, 0x10, 0x20, 0x30], []) := by decide
theorem test_decode_toggleIndicator : decode .ref .stream [0x05, 0x02, 0x01, 0x03] =
    .ok (.toggleIndicator .stream [1, 3], []) := by decide
theorem test_decode_setIndicatorColor : decode .ref .stream [0x06, 0x05, 0x01, 0x03, 0xFF, 0x00, 0x80] =
    .ok (.setIndicatorColor .stream [1, 3, 0xFF, 0x00, 0x80], []) := by decide
theorem test_decode_enableIndicator : decode .ref .block [0x07, 0x01, 0x03, 0x00, 0x00, 0x00, 0x00, 0x00] =
    .ok (.enableIndicator .block [1, 3, 0, 0, 0, 0, 0], []) := by decide
theorem test_decode_disableIndicator : decode .ref .stream [0x08, 0x02, 0x00, 0x09] =
    .ok (.disableIndicator .stream [0, 9], []) := by decide
theorem test_decode_activateLayer : decode .ref .stream [0x09, 0x01, 0x02] = .ok (.activateLayer .stream [2], []) := by
  decide
theorem test_decode_setSpeed : decode .ref .stream [0x0A, 0x02, 0x01, 0xFF] = .ok (.setSpeed .stream [1, 0xFF], []) := by
  decide
theorem test_decode_setMuteStatus : decode .ref .stream [0x0B, 0x01, 0x01] = .ok (.setMuteStatus .stream [1], []) := by
  decide
theorem test_decode_endCall : decode .ref .stream [0x0C, 0x00, 0x07] = .ok (.endCall .stream [], [0x07]) := by decide
/-- W3: a streaming frame longer than the buffer is consumed whole and cut. -/
theorem test_decode_echo : decode .ref .stream [0x0D, 0x07, 1, 2, 3, 4, 5, 6, 7, 0x07] =
    .ok (.echo .stream [1, 2, 3, 4, 5], [0x07]) := by decide
theorem test_decode_connect : decode .ref .block [0x0E, 0, 0, 0, 0, 0, 0, 0] =
    .ok (.connect .block [0, 0, 0, 0, 0, 0, 0], []) := by decide
theorem test_decode_disconnect : decode .ref .block [0x0F, 0, 0, 0, 0, 0, 0, 0] =
    .ok (.disconnect .block [0, 0, 0, 0, 0, 0, 0], []) := by decide
theorem test_decode_unknown : decode .ref .stream [0x10, 0x02, 0x01, 0x02] = .error (.unknownId 0x10) := by decide
theorem test_decode_incomplete : decode .ref .stream [0x05, 0x02, 0x01] = .error .payloadIncomplete := by decide
theorem test_stream_notation : streamNotation .ref .toggleIndicator 2 [1, 3] = [0x05, 0x02, 0x01, 0x03] := by decide
theorem test_block_notation : blockNotation .ref .enableIndicator [2, 5] = [0x07, 2, 5, 0, 0, 0, 0, 0] := by decide
theorem test_dst_bits : DecoderState.awPay.bits = 0b10 ∧ DecoderState.ofBits 0b11 = .invalid := by decide

/-! ## Commands, one step each -/

/-- W1. -/
theorem test_reset_magic : result (step (receiving .ref 0x01 4 [0xDE, 0xAD, 0xF0] 0x00)) (·.reqTrace) =
    some [.hardReset] := by decide
/-- W2. -/
theorem test_reset_mismatch : result (step (receiving .ref 0x01 4 [0xDE, 0xAD, 0xF0] 0x01)) (·.reqTrace) = some [] := by
  decide
/-- P-M1, second payload. -/
theorem test_setMode_two_is_true : result (step (receiving .ref 0x02 2 [2] 7)) (·.reqTrace) =
    some [.setMode true 7] := by decide
/-- P-M2 under ZeroFill. -/
theorem test_setMode_short_zeroFill : result (step (receiving zeroFill 0x02 1 [] 1)) (·.reqTrace) =
    some [.setMode true 0] := by decide
/-- P-T1, first frame. -/
theorem test_toggleMatrix : result (step (receiving .ref 0x03 1 [] 0)) (·.reqTrace) = some [.toggleMatrix false] := by
  decide
/-- P-T1, second frame: short under Ignore. -/
theorem test_toggleMatrix_short :
    result (exec (.toggleMatrix .stream []) (offering .ref [])) (·.reqTrace) = some [] := by decide
/-- P-C1. -/
theorem test_setMatrixColor : result (step (receiving .ref 0x04 4 [1, 0x10, 0x20] 0x30)) (·.reqTrace) =
    some [.setMatrixColor true 0x10 0x20 0x30] := by decide
/-- I1. -/
theorem test_toggleIndicator : result (step (receiving .ref 0x05 2 [1] 3)) (·.readEntry 1 3) =
    some (some ⟨true, ⟨0, 0, 0⟩⟩) := by decide
/-- I4, second frame. -/
theorem test_toggleIndicator_out_of_range : result (step (receiving .ref 0x05 2 [0] 10)) (·.array) = some [] := by
  decide
/-- B6: the colour bytes in order, the excess bytes ignored, EN unchanged. -/
theorem test_setIndicatorColor :
    result (step (offering .ref [.blockFrame [0x06, 1, 2, 0x0A, 0x0B, 0x0C, 0xFF, 0xFF]])) (·.readEntry 1 2) =
      some (some ⟨false, ⟨0x0A, 0x0B, 0x0C⟩⟩) := by decide
/-- S9 with ZeroFill: c3 is dropped by the four-byte buffer. -/
theorem test_setIndicatorColor_truncated :
    result (step (receiving { buf4 with shortPayload := .zeroFill } 0x06 5 [1, 2, 0x10, 0x20] 0x30)) (·.readEntry 1 2) =
      some (some ⟨false, ⟨0x10, 0x20, 0x00⟩⟩) := by decide
/-- B1. -/
theorem test_enableIndicator :
    result (step (offering .ref [.blockFrame [0x07, 1, 3, 0, 0, 0, 0, 0]])) (fun t => (t.readEntry 1 3, t.decTrace)) =
      some (some ⟨true, ⟨0, 0, 0⟩⟩, [⟨.block, 0x07, [1, 3, 0, 0, 0, 0, 0]⟩]) := by decide
/-- I10: under SingleLayer the layer is 0, the first byte the LED. -/
theorem test_enableIndicator_single : result (step (receiving single 0x07 2 [3] 2)) (·.readEntry 0 3) =
    some (some ⟨true, ⟨0, 0, 0⟩⟩) := by decide
/-- I8: back at the reset value, the entry is no longer listed. -/
theorem test_disableIndicator :
    result (step { receiving .ref 0x08 2 [0] 9 with array := [(9, ⟨true, ⟨0, 0, 0⟩⟩)] }) (·.array) = some [] := by decide
/-- P-L1. -/
theorem test_activateLayer : result (step (receiving .ref 0x09 1 [] 200)) (·.reqTrace) = some [.activateLayer 200] := by
  decide
/-- P-S1. -/
theorem test_setSpeed : result (step (receiving .ref 0x0A 2 [0] 0x80)) (·.reqTrace) = some [.setSpeed false 0x80] := by
  decide
/-- P-U1. -/
theorem test_setMuteStatus : result (step (receiving .ref 0x0B 1 [] 0xFF)) (·.reqTrace) = some [.setMute true] := by
  decide
/-- W4: on the length byte. -/
theorem test_endCall :
    result (step { offering .ref [.streamByte 0x00] with rx := ⟨.awLen, 0x0C, 0, 0, [0, 0, 0, 0, 0]⟩ })
      (fun t => (t.decTrace, t.reqTrace, t.rx.dst)) = some ([⟨.stream, 0x0C, []⟩], [.endCall], .awCmd) := by decide
/-- S5: the fifth byte of a full buffer. -/
theorem test_echo_stream : result (step (receiving .ref 0x0D 5 [1, 2, 3, 4] 5)) (·.reqTrace) =
    some [.echoStream [1, 2, 3, 4, 5]] := by decide
/-- B3. -/
theorem test_echo_block :
    result (step (offering .ref [.blockFrame [0x0D, 0x61, 0x62, 0x63, 0, 0, 0, 0]])) (·.reqTrace) =
      some [.echoBlock [0x0D, 0x61, 0x62, 0x63, 0, 0, 0, 0]] := by decide
/-- Program 3, step 1. -/
theorem test_connect : result (step (offering .ref [.blockFrame [0x0E, 0, 0, 0, 0, 0, 0, 0]])) (·.reqTrace) =
    some [.connect] := by decide
/-- W9. -/
theorem test_disconnect : result (step (offering .ref [.blockFrame [0x0F, 0, 0, 0, 0, 0, 0, 0]])) (·.reqTrace) =
    some [.disconnect] := by decide

/-! ## Decoder and ports, one step each -/

/-- S1. -/
theorem test_command_byte : result (step (offering .ref [.streamByte 0x05])) (fun t => (t.rx.dst, t.rx.cmd, t.rx.idx)) =
    some (.awLen, 0x05, 0) := by decide
/-- S2: an unknown id is recorded and nothing else. -/
theorem test_unknown_id :
    result (step { offering .ref [.streamByte 0x00] with rx := ⟨.awLen, 0x42, 0, 0, [0, 0, 0, 0, 0]⟩ })
      (fun t => (t.decTrace, t.reqTrace, t.array)) = some ([⟨.stream, 0x42, []⟩], [], []) := by decide
/-- S4: the sixth byte is dropped and counted. -/
theorem test_dropped_byte : result (step (receiving .ref 0x42 7 [1, 2, 3, 4, 5] 0xAA)) (·.rx) =
    some ⟨.awPay, 0x42, 7, 6, [1, 2, 3, 4, 5]⟩ := by decide
/-- S8, first byte. -/
theorem test_recovery :
    result (step { offering .ref [.streamByte 0x07] with rx := ⟨.invalid, 0x33, 9, 4, [0, 0, 0, 0, 0]⟩ })
      (fun t => (t.rx.dst, t.rx.cmd, t.rx.idx, t.decTrace)) = some (.awCmd, 0x33, 0, []) := by decide
/-- B4: a block frame in the middle of a streaming frame. -/
theorem test_block_keeps_stream :
    result (step { offering .ref [.blockFrame [0x05, 0, 0, 0, 0, 0, 0, 0]] with rx := ⟨.awPay, 0x06, 5, 2, [1, 2, 0, 0, 0]⟩ })
      (fun t => (t.rx, t.readEntry 0 0)) =
      some (⟨.awPay, 0x06, 5, 2, [1, 2, 0, 0, 0]⟩, some ⟨true, ⟨0, 0, 0⟩⟩) := by decide
/-- A3. -/
theorem test_setColor : result (step (offering .ref [.setColor 3 9 ⟨1, 2, 3⟩])) (fun t => (t.readEntry 3 9, t.colorsForLayer 3)) =
    some (some ⟨false, ⟨1, 2, 3⟩⟩, []) := by decide
/-- A5: ascending, enabled entries only. -/
theorem test_colorsForLayer :
    result (step { offering .ref [.colorsForLayer 1] with
      array := [(256, ⟨true, ⟨0, 0, 0⟩⟩), (258, ⟨true, ⟨0, 0, 0⟩⟩), (259, ⟨false, ⟨9, 9, 9⟩⟩), (263, ⟨true, ⟨0, 0, 0⟩⟩)] })
      (·.readTrace) = some [.colors [(0, ⟨0, 0, 0⟩), (2, ⟨0, 0, 0⟩), (7, ⟨0, 0, 0⟩)]] := by decide
/-- A2. -/
theorem test_readEntry_out_of_range : result (step (offering .ref [.readEntry 0 10])) (·.readTrace) =
    some [.entry none] := by decide
/-- A7. -/
theorem test_underglow : result (step (offering .ref [.setUnderglowPair 0 ⟨9, 9, 9⟩])) (·.array) =
    some [(8, ⟨true, ⟨9, 9, 9⟩⟩), (9, ⟨true, ⟨9, 9, 9⟩⟩)] := by decide
/-- A8: only the left LED is valid. -/
theorem test_underglow_one : result (step (offering { Config.ref with ugRight := 10 } [.setUnderglowPair 0 ⟨9, 9, 9⟩])) (·.array) =
    some [(8, ⟨true, ⟨9, 9, 9⟩⟩)] := by decide
/-- Program 3, step 7. -/
theorem test_reset_step :
    result (step { offering .ref [.reset] with
      rx := ⟨.awPay, 0x06, 5, 2, [1, 2, 0, 0, 0]⟩, array := [(517, ⟨true, ⟨1, 2, 3⟩⟩)], reqTrace := [.connect, .hardReset] })
      (fun t => decide (t = State.reset)) = some true := by decide
/-- B2, with the word placed as the next operation: an all-zero block frame is an unknown id. -/
theorem test_fetch_word_unknown : result (step (State.reset.withFetchWord 8 0x00)) (fun t => (t.decTrace, t.reqTrace, t.inputs)) =
    some ([⟨.block, 0x00, [0, 0, 0, 0, 0, 0, 0]⟩], [], []) := by decide
theorem test_fetch_word_endCall : result (step (State.reset.withFetchWord 8 0x0C)) (·.reqTrace) = some [.endCall] := by
  decide

/-! ## Witnesses: for each statement with hypotheses, a state and operands that meet them -/

/-- In the middle of a streaming frame, with an entry listed and an event on each trace. -/
def busy (ops : List PortOp) : State :=
  { offering .ref ops with
    rx := ⟨.awPay, 0x06, 7, 6, [1, 2, 3, 4, 5]⟩
    array := [(259, ⟨true, ⟨1, 2, 3⟩⟩)]
    decTrace := [⟨.stream, 0x0C, []⟩]
    reqTrace := [.endCall] }

/-- In AwaitingLength of command `id`. -/
def awaitingLength (id : Byte) (ops : List PortOp) : State :=
  { offering .ref ops with rx := ⟨.awLen, id, 0, 0, [0, 0, 0, 0, 0]⟩ }

theorem witness_EncodedAs : ∃ cfg : Config, cfg.wf = true := ⟨.ref, by decide⟩

theorem witness_ResetStepRestoresReset : ∃ (s : State) (rest : List PortOp), s.cfg.wf = true ∧ s.inputs = PortOp.reset :: rest :=
  ⟨busy [.reset], [], by decide, rfl⟩

theorem busy_inv : Safety.Inv (busy [.streamByte 9]) := by
  refine ⟨by decide, ⟨rfl, by decide, by decide, by decide⟩, ⟨by decide, by decide⟩, ?_, by decide⟩
  intro d hd
  rw [List.mem_singleton.1 hd]
  exact Nat.zero_le _

theorem witness_InvKeptByStep : ∃ (s t : State), Safety.Inv s ∧ step s = .next t :=
  ⟨busy [.streamByte 9], _, busy_inv, rfl⟩

theorem witness_ConfigFixed : ∃ (s t : State), step s = .next t := ⟨busy [.streamByte 9], _, rfl⟩

theorem witness_StepTotal : ∃ (s : State), s.cfg.wf = true ∧
    ∀ op rest, s.inputs = op :: rest → Safety.PortOpOk s.cfg op := by
  refine ⟨offering .ref [.blockFrame [0, 0, 0, 0, 0, 0, 0, 0]], by decide, fun op rest h => ?_⟩
  cases h
  rfl

theorem witness_IdleWaits : ∃ (s : State), s.cfg.wf = true ∧ s.inputs = [] := ⟨busy [], by decide, rfl⟩

theorem witness_StreamAwaitingCommand : ∃ (s : State) (b : Byte) (rest : List PortOp), s.cfg.wf = true ∧ s.inputs = PortOp.streamByte b :: rest ∧
    s.rx.dst = .awCmd := ⟨offering .ref [.streamByte 0xFF], 0xFF, [], by decide, rfl, rfl⟩

theorem witness_StreamZeroLength : ∃ (s : State) (rest : List PortOp), s.cfg.wf = true ∧ s.inputs = PortOp.streamByte 0x00 :: rest ∧
    s.rx.dst = .awLen := ⟨awaitingLength 0x0C [.streamByte 0], [], by decide, rfl, rfl⟩

theorem witness_StreamNonzeroLength : ∃ (s : State) (b : Byte) (rest : List PortOp), s.cfg.wf = true ∧ s.inputs = PortOp.streamByte b :: rest ∧
    s.rx.dst = .awLen ∧ b ≠ 0x00 := ⟨awaitingLength 0x0C [.streamByte 0xFF], 0xFF, [], by decide, rfl, rfl, by decide⟩

theorem witness_StreamStoresPayload_last_kept : ∃ (s : State) (b : Byte) (rest : List PortOp), s.cfg.wf = true ∧ s.inputs = PortOp.streamByte b :: rest ∧
    s.rx.dst = .awPay ∧ s.rx.idx + 0x01 ≠ s.rx.len ∧ s.rx.idx.toNat < s.cfg.maxBufLen :=
  ⟨receiving .ref 0x42 7 [1, 2, 3, 4] 5, 5, [], by decide, rfl, rfl, by decide, by decide⟩

theorem witness_StreamStoresPayload_first_dropped : ∃ (s : State) (b : Byte) (rest : List PortOp), s.cfg.wf = true ∧
    s.inputs = PortOp.streamByte b :: rest ∧ s.rx.dst = .awPay ∧ s.rx.idx + 0x01 ≠ s.rx.len ∧
    ¬ s.rx.idx.toNat < s.cfg.maxBufLen :=
  ⟨receiving .ref 0x42 7 [1, 2, 3, 4, 5] 6, 6, [], by decide, rfl, rfl, by decide, by decide⟩

theorem witness_StreamCompletesFrame : ∃ (s : State) (b : Byte) (rest : List PortOp), s.cfg.wf = true ∧ s.inputs = PortOp.streamByte b :: rest ∧
    s.rx.dst = .awPay ∧ s.rx.idx + 0x01 = s.rx.len := ⟨busy [.streamByte 9], 9, [], by decide, rfl, rfl, by decide⟩

theorem witness_StreamRecovers : ∃ (s : State) (b : Byte) (rest : List PortOp), s.cfg.wf = true ∧ s.inputs = PortOp.streamByte b :: rest ∧
    s.rx.dst = .invalid :=
  ⟨{ offering .ref [.streamByte 7] with rx := ⟨.invalid, 0, 0, 0, []⟩ }, 7, [], by decide, rfl, rfl⟩

theorem witness_BlockStepDispatches : ∃ (s : State) (id : Byte) (p : List Byte) (rest : List PortOp), s.cfg.wf = true ∧ s.inputs = PortOp.blockFrame (id :: p) :: rest ∧
    p.length + 1 = s.cfg.blockLen :=
  ⟨busy [.blockFrame [7, 0, 0, 0, 0, 0, 0, 0]], 7, [0, 0, 0, 0, 0, 0, 0], [], by decide, rfl, rfl⟩

theorem witness_Dispatches_known_and_unknown : (∃ (c : CommandName), CmdIds.ref.id c = 0x07) ∧ ∀ c, CmdIds.ref.id c ≠ 0x10 :=
  ⟨⟨.enableIndicator, rfl⟩, fun c => by cases c <;> decide⟩

theorem witness_StepRunsDecodedCommand_block : ∃ (s : State) (i : Instr) (rest : List PortOp) (f : List Byte), s.cfg.wf = true ∧ s.inputs = PortOp.blockFrame f :: rest ∧
    decode s.cfg .block f = .ok (i, []) :=
  ⟨busy [.blockFrame [0x0C, 0, 0, 0, 0, 0, 0, 0]], _, [], [0x0C, 0, 0, 0, 0, 0, 0, 0], by decide, rfl, rfl⟩

theorem witness_StepRunsDecodedCommand_zero : ∃ (s : State) (i : Instr) (rest : List PortOp), s.cfg.wf = true ∧ s.inputs = PortOp.streamByte 0x00 :: rest ∧
    s.rx.dst = .awLen ∧ decodeCommand s.cfg .stream s.rx.cmd [] = .ok i :=
  ⟨awaitingLength 0x0C [.streamByte 0], _, [], by decide, rfl, rfl, rfl⟩

theorem witness_StepRunsDecodedCommand_last : ∃ (s : State) (i : Instr) (b : Byte) (rest : List PortOp), s.cfg.wf = true ∧ s.inputs = PortOp.streamByte b :: rest ∧
    s.rx.dst = .awPay ∧ s.rx.idx + 0x01 = s.rx.len ∧
    decodeCommand s.cfg .stream s.rx.cmd
      ((if s.rx.idx.toNat < s.cfg.maxBufLen then s.rx.buf.set s.rx.idx.toNat b else s.rx.buf).take
        (min s.rx.len.toNat s.cfg.maxBufLen)) = .ok i :=
  ⟨busy [.streamByte 9], _, 9, [], by decide, rfl, rfl, by decide, rfl⟩

/-- Both clauses of the four indicator commands' statements, at the boundary of `need` (Layered, then SingleLayer). -/
theorem witness_indicator_commands :
    (([1] : List Byte).length < need Config.ref.variant .toggleIndicator ∧ Config.ref.shortPayload = .ignore) ∧
    (([1, 2, 3, 4] : List Byte).length < need Config.ref.variant .setIndicatorColor) ∧
    need Config.ref.variant .enableIndicator ≤ ([3, 9] : List Byte).length ∧
    need Config.ref.variant .setIndicatorColor ≤ ([3, 9, 1, 2, 3] : List Byte).length ∧
    need single.variant .disableIndicator ≤ ([9] : List Byte).length ∧ zeroFill.shortPayload = .zeroFill := by decide

/-- The clauses of the effect shape: a short ignored payload, an indicator command at the last valid address, a command
that leaves the array alone. -/
theorem witness_CommandEffectShape : ∃ (s : State) (i j k : Instr),
    (i.payload.length < need s.cfg.variant i.name ∧ s.cfg.shortPayload = .ignore) ∧
    (j.name ∈ Safety.indicatorCommands ∧ result (exec j s) (·.array) = some (s.array ++ [(777, ⟨true, ⟨0, 0, 0⟩⟩)])) ∧
    k.name ∉ Safety.indicatorCommands ∧ result (exec k s) (·.reqTrace) = some (s.reqTrace ++ [.hardReset]) :=
  ⟨busy [], .toggleIndicator .stream [3], .enableIndicator .stream [3, 9], .reset .stream [0xDE, 0xAD, 0xF0, 0x00],
    by decide, by decide, by decide, by decide⟩

theorem witness_ZeroFillPadsPayload : ∃ (c : CommandName) (s : State), s.cfg.shortPayload = .zeroFill ∧ c ≠ CommandName.reset ∧ c ≠ .echo :=
  ⟨.setMode, offering zeroFill [], rfl, by decide, by decide⟩

theorem witness_IgnoreSkipsShortPayload : ∃ (c : CommandName) (s : State), ∃ p : List Byte, s.cfg.shortPayload = .ignore ∧
    p.length < need s.cfg.variant c := ⟨.reset, busy [], [0xDE, 0xAD, 0xF0], rfl, by decide⟩

theorem witness_ExcessBytesIgnored : ∃ (c : CommandName) (s : State), ∃ p : List Byte, c ≠ CommandName.echo ∧ need s.cfg.variant c ≤ p.length :=
  ⟨.setIndicatorColor, busy [], [1, 2, 3, 4, 5, 6], by decide, by decide⟩

theorem witness_SameDispatchBothPaths : ∃ (c : CommandName), c ≠ CommandName.echo := ⟨.reset, by decide⟩

theorem witness_SetColorPort : ∃ (s : State) (l e : Byte) (c : Color) (rest : List PortOp), s.cfg.wf = true ∧ s.inputs = PortOp.setColor l e c :: rest :=
  ⟨busy [.setColor 3 9 ⟨1, 2, 3⟩], 3, 9, _, [], by decide, rfl⟩

theorem witness_SetEnabledPort : ∃ (s : State) (l e : Byte) (v : Bool) (rest : List PortOp), s.cfg.wf = true ∧ s.inputs = PortOp.setEnabled l e v :: rest :=
  ⟨busy [.setEnabled 1 3 false], 1, 3, _, [], by decide, rfl⟩

theorem witness_ToggleEnabledPort : ∃ (s : State) (l e : Byte) (rest : List PortOp), s.cfg.wf = true ∧ s.inputs = PortOp.toggleEnabled l e :: rest :=
  ⟨busy [.toggleEnabled 1 3], 1, 3, [], by decide, rfl⟩

theorem witness_UnderglowPairPort : ∃ (s : State) (l : Byte) (c : Color) (rest : List PortOp), s.cfg.wf = true ∧ s.inputs = PortOp.setUnderglowPair l c :: rest :=
  ⟨busy [.setUnderglowPair 3 ⟨0, 0xFF, 0⟩], 3, _, [], by decide, rfl⟩

theorem witness_ReadEntryPort : ∃ (s : State) (l e : Byte) (rest : List PortOp), s.cfg.wf = true ∧ s.inputs = PortOp.readEntry l e :: rest :=
  ⟨busy [.readEntry 1 3], 1, 3, [], by decide, rfl⟩

theorem witness_ColorsForLayerPort : ∃ (s : State) (l : Byte) (rest : List PortOp), s.cfg.wf = true ∧ s.inputs = PortOp.colorsForLayer l :: rest ∧
    ¬ s.cfg.maxLayers ≤ l.toNat := ⟨busy [.colorsForLayer 3], 3, [], by decide, rfl, by decide⟩

theorem witness_ColorsForLayerPort_out_of_range : ∃ (s : State) (l : Byte) (rest : List PortOp), s.cfg.wf = true ∧
    s.inputs = PortOp.colorsForLayer l :: rest ∧ s.cfg.maxLayers ≤ l.toNat :=
  ⟨busy [.colorsForLayer 4], 4, [], by decide, rfl, by decide⟩

/-- Each clause at the first address out of range. -/
theorem witness_OutOfRangeWritesIgnored :
    (∃ (s : State) (rest : List PortOp), ∃ l e : Byte, ∃ (c : Color), s.cfg.wf = true ∧ s.cfg.maxLayers ≤ l.toNat ∧ s.inputs = PortOp.setColor l e c :: rest) ∧
    (∃ (s : State) (rest : List PortOp), ∃ l e : Byte, ∃ (v : Bool), s.cfg.wf = true ∧ s.cfg.maxLeds ≤ e.toNat ∧ s.inputs = PortOp.setEnabled l e v :: rest) ∧
    (∃ (s : State) (rest : List PortOp), ∃ l e : Byte, s.cfg.wf = true ∧ s.cfg.maxLeds ≤ e.toNat ∧ s.inputs = PortOp.toggleEnabled l e :: rest) ∧
    (∃ (s : State) (rest : List PortOp), ∃ l : Byte, ∃ (c : Color), s.cfg.wf = true ∧ s.cfg.maxLayers ≤ l.toNat ∧
      s.inputs = PortOp.setUnderglowPair l c :: rest) :=
  ⟨⟨busy [.setColor 4 0 ⟨1, 2, 3⟩], [], 4, 0, _, by decide, by decide, rfl⟩,
    ⟨busy [.setEnabled 0 10 true], [], 0, 10, _, by decide, by decide, rfl⟩,
    ⟨busy [.toggleEnabled 0 10], [], 0, 10, by decide, by decide, rfl⟩,
    ⟨busy [.setUnderglowPair 4 ⟨9, 9, 9⟩], [], 4, _, by decide, by decide, rfl⟩⟩

theorem witness_ToggleTwiceRestores : ∃ (s : State) (l e : Byte) (rest : List PortOp), s.cfg.wf = true ∧ s.array.wf ∧
    s.inputs = PortOp.toggleEnabled l e :: .toggleEnabled l e :: rest :=
  ⟨busy [.toggleEnabled 1 3, .toggleEnabled 1 3], 1, 3, [], by decide, by decide, rfl⟩

theorem witness_ArrayWritesCommute_different : ∃ (s : State) (op op' : PortOp) (x y : Byte × Byte), s.cfg.wf = true ∧ s.array.wf ∧
    Safety.writtenEntry op = some x ∧ Safety.writtenEntry op' = some y ∧ x ≠ y :=
  ⟨busy [], .toggleEnabled 1 3, .setColor 1 4 ⟨1, 2, 3⟩, _, _, by decide, by decide, rfl, rfl, by decide⟩

theorem witness_ArrayWritesCommute_same_entry : ∃ (s : State) (op op' : PortOp), s.cfg.wf = true ∧ s.array.wf ∧
    ∃ (l e : Byte) (c : Color) (v : Bool), op = PortOp.setColor l e c ∧ op' = .setEnabled l e v :=
  ⟨busy [], _, _, by decide, by decide, 1, 3, ⟨0, 0, 0⟩, false, rfl, rfl⟩

theorem witness_EqualReadsEqualArrays : ∃ m m' : Memory, m.wf ∧ m'.wf ∧ ∀ a, m.read a = m'.read a :=
  ⟨[(259, ⟨true, ⟨1, 2, 3⟩⟩)], [(259, ⟨true, ⟨1, 2, 3⟩⟩)], by decide, by decide, fun _ => rfl⟩

theorem witness_DecodeOfEncode_stream : ∃ (cfg : Config) (i : Instr), cfg.wf = true ∧ Instr.wf cfg i = true ∧ i.src = .stream :=
  ⟨.ref, .setIndicatorColor .stream [1, 3, 0xFF, 0x00, 0x80], by decide, by decide, rfl⟩

theorem witness_DecodeOfEncode_block : ∃ (cfg : Config) (i : Instr), cfg.wf = true ∧ Instr.wf cfg i = true ∧ i.src = .block :=
  ⟨.ref, .reset .block [0xDE, 0xAD, 0xF0, 0x00, 0, 0, 0], by decide, by decide, rfl⟩

theorem witness_EncodeOfDecode_block : ∃ (cfg : Config) (bytes rest : List Byte) (i : Instr), decode cfg .block bytes = .ok (i, rest) :=
  ⟨.ref, [0x0E, 0, 0, 0, 0, 0, 0, 0, 0x55], [0x55], _, rfl⟩

theorem witness_EncodeOfDecode_stream : ∃ (cfg : Config) (bytes rest : List Byte) (i : Instr), ∃ id len : Byte,
    decode cfg .stream (id :: len :: bytes) = .ok (i, rest) ∧ len.toNat ≤ cfg.maxBufLen :=
  ⟨.ref, [1, 2, 3, 4, 5, 0x55], [0x55], _, 0x0D, 5, rfl, by decide⟩

theorem witness_StreamFrameDispatchedOnce : ∃ (s : State) (id : Byte) (q : List Byte) (rest : List PortOp), s.cfg.wf = true ∧ s.rx.dst = .awCmd ∧
    s.rx.buf.length = s.cfg.maxBufLen ∧ q.length = 255 ∧ s.inputs = Safety.streamOps (id, q) ++ rest :=
  ⟨offering .ref (Safety.streamOps (0x42, List.replicate 255 0x00) ++ [.reset]), 0x42, List.replicate 255 0x00, [.reset],
    by decide, rfl, rfl, List.length_replicate .., rfl⟩

theorem witness_StreamFrameDispatchedOnce_empty : ∃ (s : State) (id : Byte) (q : List Byte) (rest : List PortOp), s.cfg.wf = true ∧ s.rx.dst = .awCmd ∧
    s.rx.buf.length = s.cfg.maxBufLen ∧ q.length = 0 ∧ s.inputs = Safety.streamOps (id, q) ++ rest :=
  ⟨offering .ref [.streamByte 0x0C, .streamByte 0x00], 0x0C, [], [], by decide, rfl, rfl, rfl, rfl⟩

theorem witness_StreamStaysInSync : ∃ (frames : List (Byte × List Byte)) (s : State) (rest : List PortOp), s.cfg.wf = true ∧ s.rx.dst = .awCmd ∧
    s.rx.buf.length = s.cfg.maxBufLen ∧ (∀ f ∈ frames, f.2.length ≤ 255) ∧ frames.length = 2 ∧
    s.inputs = frames.flatMap Safety.streamOps ++ rest :=
  ⟨[(0x42, [1, 2, 3, 4, 5, 6, 7]), (0x07, [0, 0])],
    offering .ref ([(0x42, [1, 2, 3, 4, 5, 6, 7]), (0x07, [0, 0])].flatMap Safety.streamOps), [],
    by decide, rfl, rfl, by decide, rfl, by simp [offering]⟩

theorem witness_NoEffectBeforeCompletion : ∃ (s : State) (b : Byte) (rest : List PortOp), s.cfg.wf = true ∧ s.inputs = PortOp.streamByte b :: rest ∧
    ¬ (s.rx.dst = .awLen ∧ b = 0x00) ∧ ¬ (s.rx.dst = .awPay ∧ s.rx.idx + 0x01 = s.rx.len) :=
  ⟨receiving .ref 0x06 7 [1, 2, 3, 4, 5] 6, 6, [], by decide, rfl, by decide, by decide⟩

theorem witness_OtherPortsKeepDecoder : ∃ (s t : State) (op : PortOp) (rest : List PortOp), s.inputs = op :: rest ∧ (∀ b, op ≠ PortOp.streamByte b) ∧
    op ≠ .reset ∧ step s = .next t :=
  ⟨busy [.blockFrame [0x05, 0, 0, 0, 0, 0, 0, 0]], _, _, [], rfl, fun _ h => (nomatch h), by decide, rfl⟩

theorem witness_TracesAppendOnly : ∃ (s t : State), (∀ rest, s.inputs ≠ PortOp.reset :: rest) ∧ step s = .next t :=
  ⟨busy [.streamByte 9], _, fun _ h => (nomatch h), rfl⟩

theorem witness_RequestsFollowDecoded : ∃ (s t : State), s.reqTrace = s.decTrace.filterMap (Safety.requestOf s.cfg) ∧
    step s = .next t := ⟨busy [.streamByte 9], _, by decide, rfl⟩

/-- A second HardReset, appended while one is on REQ already. -/
theorem witness_HardResetOnlyByMagic : ∃ (s t : State), step s = .next t ∧ s.reqTrace = [.hardReset] ∧
    t.reqTrace = s.reqTrace ++ [.hardReset] :=
  ⟨{ receiving .ref 0x01 4 [0xDE, 0xAD, 0xF0] 0x00 with reqTrace := [.hardReset] }, _, rfl, rfl, by decide⟩

/-- An EndCall after a HardReset appends no second one. -/
theorem witness_HardResetOnlyByMagic_other : ∃ (s t : State), step s = .next t ∧ s.reqTrace = [.hardReset] ∧
    t.reqTrace = s.reqTrace ++ [.endCall] :=
  ⟨{ offering .ref [.blockFrame [0x0C, 0, 0, 0, 0, 0, 0, 0]] with reqTrace := [.hardReset] }, _, rfl, rfl, by decide⟩

/-- The reset clause: REQ is left empty, the HardReset on it included. -/
theorem witness_HardResetOnlyByMagic_reset : ∃ (s t : State), step s = .next t ∧ s.reqTrace = [.hardReset] ∧
    t.reqTrace = [] :=
  ⟨{ offering .ref [.reset] with reqTrace := [.hardReset] }, _, rfl, rfl, rfl⟩

theorem witness_StaleBufferUnobservable : ∃ (s t : State), Safety.SameUpToStale s t ∧ s ≠ t :=
  ⟨{ offering .ref [.streamByte 3] with rx := ⟨.awPay, 0x05, 2, 1, [1, 0, 0, 0, 0]⟩ },
    { offering .ref [.streamByte 3] with rx := ⟨.awPay, 0x05, 2, 1, [1, 9, 9, 9, 9]⟩ },
    ⟨rfl, rfl, fun _ => rfl⟩, by decide⟩

end Sys2Proof.Tests
end

section
/-! Which configuration records are valid, and which steps are refused (spec/00_scope.md R6, R7). -/

namespace Sys2Proof.Proofs

open Sys2Proof.Machine

/-- `CommandName.all` leaves no command out, so a check over it is a check over every command. -/
theorem mem_commandName_all (c : CommandName) : c ∈ CommandName.all := by
  cases c <;> decide

theorem cmdIds_injective_iff (ids : CmdIds) :
    ids.injective = true ↔ ∀ c d : CommandName, ids.id c = ids.id d → c = d := by
  simp only [CmdIds.injective, List.all_eq_true, decide_eq_true_eq]
  exact ⟨fun h c d => h c (mem_commandName_all c) d (mem_commandName_all d), fun h c _ d _ => h c d⟩

/-- Settles O3: each Boolean check of `Config.wf` decides its constraint of R6. -/
theorem configValidIff : Obligations.ConfigValidIff := by
  intro cfg
  simp only [Config.wf, Bool.and_eq_true, decide_eq_true_eq, cmdIds_injective_iff, and_assoc]

/-- No command is refused and none faults (spec/60_exceptions.md R200). -/
theorem exec_next (i : Instr) (s : State) : ∃ t, exec i s = .next t := by
  cases i with
  | echo src p => cases src <;> exact ⟨_, rfl⟩
  | _ => exact ⟨_, rfl⟩

theorem dispatch_next (src : Source) (id : Byte) (p : List Byte) (s : State) :
    ∃ t, dispatch src id p s = .next t := by
  rcases Laws.dispatch_cases src id p s with ⟨c, -, h⟩ | ⟨-, h⟩
  · rw [h]
    exact exec_next _ _
  · exact ⟨_, h⟩

theorem streamStep_next (b : Byte) (s : State) : ∃ t, streamStep b s = .next t := by
  unfold streamStep
  cases s.rx.dst with
  | awCmd => exact ⟨_, rfl⟩
  | awLen =>
    by_cases hb : b = 0x00
    · simpa [hb] using dispatch_next _ _ _ _
    · exact ⟨_, if_neg hb⟩
  | awPay =>
    by_cases hd : (s.rx.takePayload s.cfg.maxBufLen b).idx = (s.rx.takePayload s.cfg.maxBufLen b).len
    · simpa only [if_pos hd] using dispatch_next _ _ _ _
    · exact ⟨_, if_neg hd⟩
  | invalid => exact ⟨_, rfl⟩

/-- A frame of `BLOCK_LEN` bytes is taken; its id byte needs `BLOCK_LEN` to be at least 1 (R6), or the empty frame
would have the right length. -/
theorem blockStep_next {f : List Byte} {s : State} (hw : s.cfg.wf = true) (hf : f.length = s.cfg.blockLen) :
    ∃ t, blockStep f s = .next t := by
  cases f with
  | nil =>
    obtain ⟨-, -, -, -, -, hpos, -⟩ := (configValidIff s.cfg).1 hw
    simp only [List.length_nil] at hf
    omega
  | cons id p =>
    obtain ⟨t, ht⟩ := dispatch_next .block id p s
    exact ⟨t, (if_pos hf).trans ht⟩

theorem blockStep_refused {f : List Byte} {s : State} (hf : f.length ≠ s.cfg.blockLen) :
    blockStep f s = .refused .blockFrameLength := by
  cases f with
  | nil => rfl
  | cons id p => exact if_neg hf

/-- An operation that its port takes is performed to the end. -/
theorem perform_next {op : PortOp} {s : State} (hw : s.cfg.wf = true) (ho : Safety.PortOpOk s.cfg op) :
    ∃ t, perform op s = .next t := by
  cases op with
  | streamByte b => exact streamStep_next b s
  | blockFrame f => exact blockStep_next hw ho
  | _ => exact ⟨_, rfl⟩

theorem not_portOpOk_iff {cfg : Config} {op : PortOp} :
    ¬ Safety.PortOpOk cfg op ↔ ∃ f, op = .blockFrame f ∧ f.length ≠ cfg.blockLen := by
  cases op <;> simp [Safety.PortOpOk]

theorem perform_refused_iff {op : PortOp} {s : State} (hw : s.cfg.wf = true) (r : Refusal) :
    perform op s = .refused r ↔
      r = .blockFrameLength ∧ ∃ f, op = .blockFrame f ∧ f.length ≠ s.cfg.blockLen := by
  rw [← not_portOpOk_iff]
  by_cases ho : Safety.PortOpOk s.cfg op
  · obtain ⟨t, ht⟩ := perform_next hw ho
    simp [ht, ho]
  · obtain ⟨f, rfl, hf⟩ := not_portOpOk_iff.1 ho
    have hr : perform (.blockFrame f) s = .refused .blockFrameLength := blockStep_refused hf
    simp [hr, ho, eq_comm]

/-- Settles O4, along the three things a step can do (`Laws.step_cases`): refuse the record, wait, or perform the next
operation. -/
theorem refusedExactlyWhen : Obligations.RefusedExactlyWhen := by
  intro s r
  rcases Laws.step_cases s with ⟨hw, hs⟩ | ⟨hw, hi, hs⟩ | ⟨op, rest, hw, hi, hs⟩
  · simp [hs, hw, eq_comm]
  · simp [hs, hw, hi]
  · rw [hs, perform_refused_iff (s := { s with inputs := rest }) hw]
    simp [hw, hi]

end Sys2Proof.Proofs
end

section
/-! What an operation can do to the state. A command is one write, one request or nothing, chosen by its payload and the
record alone; a port operation is a reset, an array access, or a byte or frame that a decoder takes
(spec/44_passthrough_commands.md R170, R184; spec/60_exceptions.md R214). -/

namespace Sys2Proof.Proofs

open Sys2Proof.Machine

/-- The updates that a command's rule can amount to. -/
inductive IsCommandEffect : (State → State) → Prop
  | nothing : IsCommandEffect fun s => s
  | write (l e : Byte) (f : Entry → Entry) : IsCommandEffect fun s => s.updateEntry l e f
  | request (r : Request) : IsCommandEffect fun s => s.emitReq r

namespace IsCommandEffect

variable {F : State → State} (hF : IsCommandEffect F) (s : State)
include hF

theorem cfg_eq : (F s).cfg = s.cfg := by cases hF <;> rfl
theorem rx_eq : (F s).rx = s.rx := by cases hF <;> rfl
theorem decTrace_eq : (F s).decTrace = s.decTrace := by cases hF <;> rfl
theorem inputs_eq : (F s).inputs = s.inputs := by cases hF <;> rfl

theorem withRx (rx : StreamRegs) : F (s.withRx rx) = (F s).withRx rx := by cases hF <;> rfl

theorem reqTrace_cases : (F s).reqTrace = s.reqTrace ∨ ∃ r, (F s).reqTrace = s.reqTrace ++ [r] := by
  cases hF with
  | nothing => exact .inl rfl
  | write l e f => exact .inl rfl
  | request r => exact .inr ⟨r, rfl⟩

theorem arrayOk (ha : Safety.ArrayOk s.cfg s.array) : Safety.ArrayOk s.cfg (F s).array := by
  cases hF with
  | write l e f => exact Laws.update_arrayOk l e f ha
  | _ => exact ha

/-- An effect behind a check that can skip it (spec/30_encoding.md R68). -/
theorem skipIf (b : Bool) : IsCommandEffect fun s => if b then s else F s := by
  cases b with
  | false => exact hF
  | true => exact .nothing

end IsCommandEffect

/-- Under the record `cfg`, the rule `m` completes with one and the same effect from every state: nothing else of the
state decides what it does. -/
def HasCommandEffect (cfg : Config) (m : State → Host.Outcome State Fault Refusal) : Prop :=
  ∃ F, IsCommandEffect F ∧ ∀ s, s.cfg = cfg → m s = .next (F s)

/-- The request of a pass-through command, which a short payload can skip (spec/44_passthrough_commands.md R172). -/
theorem hasCommandEffect_request (cfg : Config) (c : CommandName) (p : List Byte) (r : Request) :
    HasCommandEffect cfg fun s => .next (s.request c p r) :=
  ⟨_, (IsCommandEffect.request r).skipIf (skipped cfg c p), by rintro s rfl; rfl⟩

/-- The write of an indicator command; what it writes may depend on the record too. -/
theorem hasCommandEffect_write (cfg : Config) (c : CommandName) (p : List Byte) (f : Config → Entry → Entry) :
    HasCommandEffect cfg fun s => .next <| if skipped s.cfg c p then s
      else s.updateEntry (layerField s.cfg.variant p) (ledField s.cfg.variant p) (f s.cfg) :=
  ⟨_, (IsCommandEffect.write (layerField cfg.variant p) (ledField cfg.variant p) (f cfg)).skipIf (skipped cfg c p),
    by rintro s rfl; rfl⟩

theorem hasCommandEffect_emitReq (cfg : Config) (r : Request) : HasCommandEffect cfg fun s => .next (s.emitReq r) :=
  ⟨_, .request r, fun _ _ => rfl⟩

/-- Every command has one of the effects, chosen by the record, its path and its payload alone. -/
theorem exec_hasCommandEffect (cfg : Config) (i : Instr) : HasCommandEffect cfg (exec i) := by
  cases i with
  | reset src p =>
    refine ⟨_, (IsCommandEffect.request .hardReset).skipIf (!magicMatches p), fun s _ => ?_⟩
    cases h : magicMatches p <;> simp [exec, execReset, h]
  | setMode src p => exact hasCommandEffect_request cfg .setMode p _
  | toggleMatrix src p => exact hasCommandEffect_request cfg .toggleMatrix p _
  | setMatrixColor src p => exact hasCommandEffect_request cfg .setMatrixColor p _
  | activateLayer src p => exact hasCommandEffect_request cfg .activateLayer p _
  | setSpeed src p => exact hasCommandEffect_request cfg .setSpeed p _
  | setMuteStatus src p => exact hasCommandEffect_request cfg .setMuteStatus p _
  | toggleIndicator src p =>
    exact hasCommandEffect_write cfg .toggleIndicator p fun _ x => { x with enabled := !x.enabled }
  | setIndicatorColor src p =>
    exact hasCommandEffect_write cfg .setIndicatorColor p fun k x => { x with color := colorField k.variant p }
  | enableIndicator src p =>
    exact hasCommandEffect_write cfg .enableIndicator p fun _ x => { x with enabled := true }
  | disableIndicator src p =>
    exact hasCommandEffect_write cfg .disableIndicator p fun _ x => { x with enabled := false }
  | endCall src p => exact hasCommandEffect_emitReq cfg _
  | connect src p => exact hasCommandEffect_emitReq cfg _
  | disconnect src p => exact hasCommandEffect_emitReq cfg _
  | echo src p =>
    cases src with
    | stream => exact hasCommandEffect_emitReq cfg _
    | block => exact ⟨_, .request (.echoBlock (cfg.cmdIds.id .echo :: p)), by rintro s rfl; rfl⟩

theorem dispatch_of_known {s : State} {id : Byte} {c : CommandName} (hl : lookupId s.cfg id = some c) (src : Source)
    (p : List Byte) : dispatch src id p s = exec (Instr.ofName c src p) (s.emitDec ⟨src, id, p⟩) := by
  simp [dispatch, decodeCommand, hl]

theorem dispatch_of_unknown {s : State} {id : Byte} (hl : lookupId s.cfg id = none) (src : Source) (p : List Byte) :
    dispatch src id p s = .next (s.emitDec ⟨src, id, p⟩) := by
  simp [dispatch, decodeCommand, hl]

/-- A dispatch is its `DEC` event and at most one command effect (spec/44_passthrough_commands.md R170, R171). -/
theorem dispatch_hasCommandEffect (cfg : Config) (src : Source) (id : Byte) (p : List Byte) :
    ∃ F, IsCommandEffect F ∧ ∀ s, s.cfg = cfg → dispatch src id p s = .next (F (s.emitDec ⟨src, id, p⟩)) := by
  cases hl : lookupId cfg id with
  | none =>
    refine ⟨_, .nothing, ?_⟩
    rintro s rfl
    exact dispatch_of_unknown hl src p
  | some c =>
    obtain ⟨F, hF, h⟩ := exec_hasCommandEffect cfg (Instr.ofName c src p)
    refine ⟨F, hF, ?_⟩
    rintro s rfl
    exact (dispatch_of_known hl src p).trans (h (s.emitDec _) rfl)

/-- What an array port or a read port can do: the array stays within its bounds, the read results may grow, and the
decoder registers are neither read nor written (spec/10_state.md R21). -/
structure IsArrayAccess (F : State → State) : Prop where
  frame : ∀ s, F s = { s with array := (F s).array, readTrace := (F s).readTrace }
  arrayOk : ∀ s, Safety.ArrayOk s.cfg s.array → Safety.ArrayOk s.cfg (F s).array
  withRx : ∀ s rx, F (s.withRx rx) = (F s).withRx rx

namespace IsArrayAccess

variable {F : State → State} (hF : IsArrayAccess F) (s : State)
include hF

theorem cfg_eq : (F s).cfg = s.cfg := by rw [hF.frame]
theorem rx_eq : (F s).rx = s.rx := by rw [hF.frame]
theorem decTrace_eq : (F s).decTrace = s.decTrace := by rw [hF.frame]
theorem reqTrace_eq : (F s).reqTrace = s.reqTrace := by rw [hF.frame]
theorem inputs_eq : (F s).inputs = s.inputs := by rw [hF.frame]

end IsArrayAccess

theorem isArrayAccess_updateEntry (l e : Byte) (f : Entry → Entry) : IsArrayAccess fun s => s.updateEntry l e f :=
  ⟨fun _ => rfl, fun _ h => Laws.update_arrayOk l e f h, fun _ _ => rfl⟩

theorem isArrayAccess_setUnderglowPair (l : Byte) (c : Color) : IsArrayAccess fun s => s.setUnderglowPair l c where
  frame _ := rfl
  arrayOk s h := by
    simp only [Laws.setUnderglowPair_eq]
    exact Laws.update_arrayOk _ _ _ (Laws.update_arrayOk _ _ _ h)
  withRx _ _ := rfl

theorem isArrayAccess_readEntry (l e : Byte) : IsArrayAccess fun s => s.returnRead (.entry (s.readEntry l e)) :=
  ⟨fun _ => rfl, fun _ h => h, fun _ _ => rfl⟩

theorem isArrayAccess_colorsForLayer (l : Byte) : IsArrayAccess fun s => s.returnRead (.colors (s.colorsForLayer l)) :=
  ⟨fun _ => rfl, fun _ h => h, fun _ _ => rfl⟩

/-- Every port but the two decoders' and the reset input is an array access. -/
theorem perform_port_cases (op : PortOp) :
    (∃ F, IsArrayAccess F ∧ ∀ s, perform op s = .next (F s)) ∨
      (∃ b, op = .streamByte b) ∨ (∃ f, op = .blockFrame f) ∨ op = .reset := by
  cases op with
  | streamByte b => exact .inr (.inl ⟨b, rfl⟩)
  | blockFrame f => exact .inr (.inr (.inl ⟨f, rfl⟩))
  | reset => exact .inr (.inr (.inr rfl))
  | setColor l e c => exact .inl ⟨_, isArrayAccess_updateEntry l e _, fun _ => rfl⟩
  | setEnabled l e v => exact .inl ⟨_, isArrayAccess_updateEntry l e _, fun _ => rfl⟩
  | toggleEnabled l e => exact .inl ⟨_, isArrayAccess_updateEntry l e _, fun _ => rfl⟩
  | setUnderglowPair l c => exact .inl ⟨_, isArrayAccess_setUnderglowPair l c, fun _ => rfl⟩
  | readEntry l e => exact .inl ⟨_, isArrayAccess_readEntry l e, fun _ => rfl⟩
  | colorsForLayer l => exact .inl ⟨_, isArrayAccess_colorsForLayer l, fun _ => rfl⟩

/-- The registers after a stream byte (spec/40_stream_decoder.md R101 to R106). -/
def regsAfter (cap : Nat) (b : Byte) (rx : StreamRegs) : StreamRegs :=
  match rx.dst with
  | .awCmd => rx.takeCommand b
  | .awLen => rx.takeLength b
  | .awPay => rx.takePayload cap b
  | .invalid => rx.recover

/-- The payload of the frame that a stream byte completes, if it completes one (spec/40_stream_decoder.md R102,
R105). -/
def completedPayload (cap : Nat) (b : Byte) (rx : StreamRegs) : Option (List Byte) :=
  match rx.dst with
  | .awLen => if b = 0x00 then some [] else none
  | .awPay => if rx.idx + 0x01 = rx.len then some ((rx.takePayload cap b).delivered cap) else none
  | _ => none

/-- A stream byte writes the registers and dispatches the frame it completes. -/
theorem streamStep_eq (b : Byte) (s : State) :
    streamStep b s = (completedPayload s.cfg.maxBufLen b s.rx).elim
      (.next (s.withRx (regsAfter s.cfg.maxBufLen b s.rx)))
      fun p => dispatch .stream s.rx.cmd p (s.withRx (regsAfter s.cfg.maxBufLen b s.rx)) := by
  unfold streamStep completedPayload regsAfter
  cases s.rx.dst with
  | awCmd => rfl
  | awLen =>
    by_cases hb : b = 0x00
    · simp only [if_pos hb, Option.elim_some]
    · simp only [if_neg hb, Option.elim_none]
  | awPay =>
    by_cases hd : s.rx.idx + 0x01 = s.rx.len
    · refine (if_pos hd).trans ?_
      simp only [if_pos hd, Option.elim_some, Laws.takePayload_cmd]
    · refine (if_neg hd).trans ?_
      simp only [if_neg hd, Option.elim_none]
  | invalid => rfl

/-- A delivered payload fits the buffer (spec/40_stream_decoder.md R107). -/
theorem length_completedPayload {cap : Nat} {b : Byte} {rx : StreamRegs} {p : List Byte}
    (h : completedPayload cap b rx = some p) : p.length ≤ cap := by
  revert h
  unfold completedPayload
  cases rx.dst with
  | awLen =>
    intro h
    obtain ⟨-, rfl⟩ := Option.ite_some_none_eq_some.1 h
    exact Nat.zero_le _
  | awPay =>
    intro h
    obtain ⟨-, rfl⟩ := Option.ite_some_none_eq_some.1 h
    simp [StreamRegs.delivered]
  | _ => exact fun h => nomatch h

/-- A block frame that is taken is dispatched whole, and is of the length of the port (spec/41_block_decoder.md
R120). -/
theorem blockStep_cases (f : List Byte) (s : State) :
    blockStep f s = .refused .blockFrameLength ∨
      ∃ id p, f = id :: p ∧ p.length + 1 = s.cfg.blockLen ∧ blockStep f s = dispatch .block id p s := by
  cases f with
  | nil => exact .inl rfl
  | cons id p =>
    by_cases hp : p.length + 1 = s.cfg.blockLen
    · exact .inr ⟨id, p, rfl, hp, if_pos hp⟩
    · exact .inl (if_neg hp)

/-- The states that an operation performed to the end can leave, by what the operation was. -/
inductive Performed (s : State) : PortOp → State → Prop
  | reset : Performed s .reset s.resetStep
  | access {op : PortOp} {F : State → State} (hF : IsArrayAccess F) : Performed s op (F s)
  | block {id : Byte} {p : List Byte} {F : State → State} (hp : p.length + 1 = s.cfg.blockLen)
      (hF : IsCommandEffect F) : Performed s (.blockFrame (id :: p)) (F (s.emitDec ⟨.block, id, p⟩))
  | byte {b : Byte} : Performed s (.streamByte b) (s.withRx (regsAfter s.cfg.maxBufLen b s.rx))
  | frame {b : Byte} {p : List Byte} {F : State → State} (hp : completedPayload s.cfg.maxBufLen b s.rx = some p)
      (hF : IsCommandEffect F) : Performed s (.streamByte b)
        (F ((s.withRx (regsAfter s.cfg.maxBufLen b s.rx)).emitDec ⟨.stream, s.rx.cmd, p⟩))

theorem performed_of_next {op : PortOp} {s t : State} (h : perform op s = .next t) : Performed s op t := by
  rcases perform_port_cases op with ⟨F, hF, hop⟩ | ⟨b, rfl⟩ | ⟨f, rfl⟩ | rfl
  · cases (hop s).symm.trans h
    exact .access hF
  · have hs := (streamStep_eq b s).symm.trans h
    cases hp : completedPayload s.cfg.maxBufLen b s.rx with
    | none =>
      rw [hp] at hs
      cases hs
      exact .byte
    | some p =>
      obtain ⟨F, hF, hd⟩ := dispatch_hasCommandEffect s.cfg .stream s.rx.cmd p
      rw [hp, Option.elim_some, hd (s.withRx (regsAfter s.cfg.maxBufLen b s.rx)) rfl] at hs
      cases hs
      exact .frame hp hF
  · rcases blockStep_cases f s with hs | ⟨id, p, rfl, hp, hs⟩
    · cases hs.symm.trans h
    · obtain ⟨F, hF, hd⟩ := dispatch_hasCommandEffect s.cfg .block id p
      cases (hs.trans (hd s rfl)).symm.trans h
      exact .block hp hF
  · cases h
    exact .reset

/-- A step that answers a next state waited, or performed the operation it took. -/
theorem step_next_cases {s t : State} (h : step s = .next t) :
    (s.inputs = [] ∧ t = s) ∨ ∃ op rest, s.inputs = op :: rest ∧ Performed { s with inputs := rest } op t := by
  rcases Laws.step_cases s with ⟨-, hs⟩ | ⟨-, hi, hs⟩ | ⟨op, rest, -, hi, hs⟩
  · cases hs.symm.trans h
  · cases hs.symm.trans h
    exact .inl ⟨hi, rfl⟩
  · exact .inr ⟨op, rest, hi, performed_of_next (hs.symm.trans h)⟩

end Sys2Proof.Proofs
end

section
/-! What every step keeps: the configuration record, the order of the traces, the decoder's registers under the other
ports, and the invariant of reachable states (spec/10_state.md R21, R23, R27 to R32, R35). -/

namespace Sys2Proof.Proofs

open Sys2Proof.Machine

/-- Settles O5: each clause is a field of the reset record, and every address of the empty list reads as the default
entry. -/
theorem resetStateValues : Obligations.ResetStateValues :=
  ⟨rfl, fun _ _ _ => ⟨rfl, rfl, rfl, rfl, List.length_replicate, rfl, rfl, rfl⟩⟩

theorem performed_cfg {op : PortOp} {s t : State} (h : Performed s op t) : t.cfg = s.cfg := by
  cases h with
  | reset => rfl
  | access hF => exact hF.cfg_eq s
  | block hp hF => exact hF.cfg_eq _
  | byte => rfl
  | frame hp hF => exact hF.cfg_eq _

/-- Settles O9: neither an array access nor a command effect writes the record, and the reset step keeps it. -/
theorem configFixed : Obligations.ConfigFixed := by
  intro s t h
  rcases step_next_cases h with ⟨-, rfl⟩ | ⟨op, rest, -, hp⟩
  · rfl
  · exact (performed_cfg hp).trans rfl

/-- Settles O56: of the operations left, an array access does not write the registers, and a block frame is recorded
and performed without them. -/
theorem otherPortsKeepDecoder : Obligations.OtherPortsKeepDecoder := by
  intro s t op rest hi hstream hreset h
  rcases step_next_cases h with ⟨hnil, -⟩ | ⟨op', rest', hi', hp⟩
  · cases hnil.symm.trans hi
  · cases hi'.symm.trans hi
    cases hp with
    | reset => exact absurd rfl hreset
    | access hF => exact ⟨hF.rx_eq _, hF.inputs_eq _⟩
    | block hp hF => exact ⟨hF.rx_eq _, hF.inputs_eq _⟩
    | byte => exact absurd rfl (hstream _)
    | frame => exact absurd rfl (hstream _)

/-- Settles O57: a decoded frame appends its one `DEC` event and at most the one request of its effect; a byte inside a
frame and an array access append nothing. -/
theorem tracesAppendOnly : Obligations.TracesAppendOnly := by
  intro s t hreset h
  rcases step_next_cases h with ⟨-, rfl⟩ | ⟨op, rest, hi, hp⟩
  · exact .inl ⟨rfl, rfl⟩
  · cases hp with
    | reset => exact absurd hi (hreset rest)
    | access hF => exact .inl ⟨hF.decTrace_eq _, hF.reqTrace_eq _⟩
    | block hp hF => exact .inr ⟨⟨_, hF.decTrace_eq _⟩, hF.reqTrace_cases _⟩
    | byte => exact .inl ⟨rfl, rfl⟩
    | frame hp hF => exact .inr ⟨⟨_, hF.decTrace_eq _⟩, hF.reqTrace_cases _⟩

theorem inv_resetFor {cfg : Config} (hw : cfg.wf = true) : Safety.Inv (State.resetFor cfg) := by
  refine ⟨hw, ⟨List.length_replicate, ?_, ?_, ?_⟩, ⟨Laws.reset_array_wf, ?_⟩, ?_, Nat.le_refl 0⟩
  all_goals simp [State.resetFor, StreamRegs.atReset]

/-- Settles O7: the reset state of every valid record meets the invariant, and REF is valid. -/
theorem invHoldsAtReset : Obligations.InvHoldsAtReset :=
  ⟨inv_resetFor (by decide), fun _ hw => inv_resetFor hw⟩

theorem takePayload_length_buf (cap : Nat) (b : Byte) (rx : StreamRegs) :
    (rx.takePayload cap b).buf.length = rx.buf.length := by
  rw [Laws.takePayload_buf]
  split
  · exact List.length_set
  · rfl

/-- A stream byte keeps the registers in order: AwaitingLength is entered with index 0, AwaitingPayloadByte with a
non-zero length, and it is left when the index reaches the length (spec/10_state.md R27). -/
theorem regsAfter_rxOk {cfg : Config} {rx : StreamRegs} (b : Byte) (h : Safety.RxOk cfg rx) :
    Safety.RxOk cfg (regsAfter cfg.maxBufLen b rx) := by
  obtain ⟨hbuf, hvalid, hlen, hpay⟩ := h
  unfold regsAfter
  cases hd : rx.dst with
  | awCmd => exact ⟨hbuf, by simp, by simp, by simp⟩
  | awLen =>
    have hpos : b ≠ 0x00 → 0 < b.toNat := by bv_omega
    exact ⟨hbuf, by simp [ite_eq_iff], by simp [ite_eq_iff], by simpa [ite_eq_iff, hlen hd] using hpos⟩
  | awPay =>
    have hlt : rx.idx + 0x01 ≠ rx.len → (rx.idx + 0x01).toNat < rx.len.toNat := by
      have := hpay hd
      bv_omega
    exact ⟨(takePayload_length_buf _ b rx).trans hbuf, by simp [ite_eq_iff], by simp [ite_eq_iff],
      by simpa [ite_eq_iff] using hlt⟩
  | invalid => exact absurd hd hvalid

theorem emitDec_tracesOk {s : State} {d : Decoded} {F : State → State} (hF : IsCommandEffect F)
    (hd : Safety.DecodedOk s.cfg d) (h : Safety.TracesOk s.cfg s.decTrace s.reqTrace) :
    Safety.TracesOk s.cfg (F (s.emitDec d)).decTrace (F (s.emitDec d)).reqTrace := by
  obtain ⟨hdec, hreq⟩ := h
  rw [hF.decTrace_eq, Laws.emitDec_decTrace]
  refine ⟨List.forall_mem_append.2 ⟨hdec, List.forall_mem_singleton.2 hd⟩, ?_⟩
  rcases hF.reqTrace_cases (s.emitDec d) with hr | ⟨r, hr⟩
  · simp only [hr, Laws.emitDec_reqTrace, List.length_append]
    exact hreq.trans (Nat.le_add_right _ _)
  · simpa [hr] using hreq

/-- Recording a command that its path can deliver and performing its effect keeps the invariant. -/
theorem inv_commandEffect {s : State} {d : Decoded} {F : State → State} (hF : IsCommandEffect F)
    (hd : Safety.DecodedOk s.cfg d) (h : Safety.Inv s) : Safety.Inv (F (s.emitDec d)) := by
  obtain ⟨hw, hrx, harray, htraces⟩ := h
  unfold Safety.Inv
  rw [hF.cfg_eq, hF.rx_eq]
  exact ⟨hw, hrx, hF.arrayOk _ harray, emitDec_tracesOk hF hd htraces⟩

theorem inv_access {s : State} {F : State → State} (hF : IsArrayAccess F) (h : Safety.Inv s) : Safety.Inv (F s) := by
  obtain ⟨hw, hrx, harray, htraces⟩ := h
  unfold Safety.Inv
  rw [hF.cfg_eq, hF.rx_eq, hF.decTrace_eq, hF.reqTrace_eq]
  exact ⟨hw, hrx, hF.arrayOk s harray, htraces⟩

theorem inv_streamByte {s : State} (b : Byte) (h : Safety.Inv s) :
    Safety.Inv (s.withRx (regsAfter s.cfg.maxBufLen b s.rx)) := by
  obtain ⟨hw, hrx, harray, htraces⟩ := h
  exact ⟨hw, regsAfter_rxOk b hrx, harray, htraces⟩

theorem performed_inv {op : PortOp} {s t : State} (h : Performed s op t) (hs : Safety.Inv s) : Safety.Inv t := by
  cases h with
  | reset => exact inv_resetFor hs.1
  | access hF => exact inv_access hF hs
  | block hp hF => exact inv_commandEffect hF hp hs
  | byte => exact inv_streamByte _ hs
  | frame hp hF => exact inv_commandEffect hF (length_completedPayload hp) (inv_streamByte _ hs)

/-- Settles O8: each way in which an operation can be performed keeps the invariant. -/
theorem invKeptByStep : Obligations.InvKeptByStep := by
  intro s t hs h
  rcases step_next_cases h with ⟨-, rfl⟩ | ⟨op, rest, -, hp⟩
  · exact hs
  · exact performed_inv hp hs

end Sys2Proof.Proofs
end

section
/-! A canonical array is determined by what its addresses read (spec/10_state.md R29; log 9). -/

namespace Sys2Proof.Proofs

open Sys2Proof.Machine

/-- A canonical array lists exactly the addresses that read as something else than the reset contents. -/
theorem mem_iff_read {m : Memory} (h : m.wf) (x : Nat × Entry) :
    x ∈ m ↔ m.read x.1 = x.2 ∧ x.2 ≠ Entry.initial := by
  obtain ⟨hsorted, hlisted⟩ := h
  induction m with
  | nil => simpa using fun h => Eq.symm h
  | cons y m ih =>
    obtain ⟨hy, hm⟩ := List.pairwise_cons.1 hsorted
    have ih := ih hm fun z hz => hlisted z (List.mem_cons_of_mem y hz)
    rw [Laws.read_cons, List.mem_cons]
    by_cases hxy : x.1 = y.1
    · have hx : x ∉ m := fun hx => absurd (hy x hx) (by omega)
      have hne := hlisted y List.mem_cons_self
      rw [if_pos hxy]
      constructor
      · rintro (rfl | h)
        · exact ⟨rfl, hne⟩
        · exact absurd h hx
      · exact fun ⟨h, _⟩ => .inl (Prod.ext hxy h.symm)
    · rw [if_neg hxy, ← ih]
      exact or_iff_right fun h => hxy (congrArg Prod.fst h)

/-- Settles O50: equal reads give equal listed entries, and a strictly rising list is determined by its members. -/
theorem equalReadsEqualArrays : Obligations.EqualReadsEqualArrays := by
  intro m m' h h' hread
  have : Std.Irrefl fun x y : Nat × Entry => x.1 < y.1 := ⟨fun x => Nat.lt_irrefl x.1⟩
  have : Std.Antisymm fun x y : Nat × Entry => x.1 < y.1 := ⟨fun x y h₁ h₂ => absurd h₁ (Nat.lt_asymm h₂)⟩
  exact h.1.eq_of_mem_iff h'.1 fun x => by rw [mem_iff_read h, mem_iff_read h', hread]

end Sys2Proof.Proofs
end

section
/-! Buffer bytes that no rule reads are never observed (spec/10_state.md R28): two states that differ in them only take
the same steps. -/

namespace Sys2Proof.Proofs

open Sys2Proof.Machine

/-- The register part of `Safety.SameUpToStale`, for a buffer of capacity `cap`. -/
def SameRegs (cap : Nat) (x y : StreamRegs) : Prop :=
  y = { x with buf := y.buf } ∧ y.buf.length = x.buf.length ∧
    (x.dst = .awLen ∨ x.dst = .awPay → y.buf.take (min x.idx.toNat cap) = x.buf.take (min x.idx.toNat cap))

theorem sameUpToStale_iff {s t : State} :
    Safety.SameUpToStale s t ↔ ∃ rx, t = s.withRx rx ∧ SameRegs s.cfg.maxBufLen s.rx rx := by
  constructor
  · rintro ⟨ht, hlen, htake⟩
    exact ⟨t.rx, by rw [ht]; rfl, by rw [ht], hlen, htake⟩
  · rintro ⟨rx, rfl, hrx, hlen, htake⟩
    exact ⟨congrArg s.withRx hrx, hlen, htake⟩

/-- Two buffers that agree below position `i` agree below `i + 1` once the same byte is stored at `i`, or once `i` has
reached the capacity, where the byte is dropped (spec/40_stream_decoder.md R104). -/
theorem take_store_eq {x y : List Byte} {i cap : Nat} (b : Byte) (hlen : y.length = x.length)
    (h : y.take (min i cap) = x.take (min i cap)) {n : Nat} (hn : n ≤ i + 1) :
    (if i < cap then y.set i b else y).take (min n cap) = (if i < cap then x.set i b else x).take (min n cap) := by
  apply List.ext_getElem?
  intro j
  have hj := congrArg (·[j]?) h
  simp only [List.getElem?_take] at hj ⊢
  split
  · next hjn =>
    by_cases hi : i < cap
    · simp only [if_pos hi, List.getElem?_set, hlen]
      by_cases hij : i = j
      · simp [hij]
      · simp only [if_neg hij]
        simpa [show j < i ∧ j < cap by omega] using hj
    · simp only [if_neg hi]
      simpa [show j < i ∧ j < cap by omega] using hj
  · rfl

theorem toNat_add_one_le (i : Byte) : (i + 0x01).toNat ≤ i.toNat + 1 := by
  bv_omega

/-- A stream byte is taken the same way whatever the unread bytes are. -/
theorem sameRegs_regsAfter {cap : Nat} {x y : StreamRegs} (h : SameRegs cap x y) (b : Byte) :
    SameRegs cap (regsAfter cap b x) (regsAfter cap b y) := by
  obtain ⟨hy, hlen, htake⟩ := h
  generalize y.buf = buf at hy hlen htake
  subst hy
  unfold regsAfter
  cases hd : x.dst with
  | awCmd => exact ⟨rfl, hlen, fun _ => by simp⟩
  | awLen => exact ⟨rfl, hlen, fun _ => htake (.inl hd)⟩
  | awPay =>
    refine ⟨rfl, ?_, fun _ => take_store_eq b hlen (htake (.inr hd)) (toNat_add_one_le x.idx)⟩
    rw [takePayload_length_buf, takePayload_length_buf]
    exact hlen
  | invalid => exact ⟨rfl, hlen, by simp⟩

/-- The frame that a stream byte completes is read below `min(len, MAX_BUF_LEN)`, where `len` is the index the byte has
reached. -/
theorem completedPayload_eq_of_sameRegs {cap : Nat} {x y : StreamRegs} (h : SameRegs cap x y) (b : Byte) :
    completedPayload cap b y = completedPayload cap b x := by
  obtain ⟨hy, hlen, htake⟩ := h
  generalize y.buf = buf at hy hlen htake
  subst hy
  unfold completedPayload
  cases hd : x.dst with
  | awPay =>
    by_cases hc : x.idx + 0x01 = x.len
    · refine (if_pos hc).trans (Eq.trans (congrArg some ?_) (if_pos hc).symm)
      exact take_store_eq b hlen (htake (.inr hd)) (hc ▸ toNat_add_one_le x.idx)
    · exact (if_neg hc).trans (if_neg hc).symm
  | _ => rfl

/-- An update that neither reads nor writes the decoder registers keeps two states alike. -/
theorem sameUpToStale_map {F : State → State} (hcfg : ∀ s, (F s).cfg = s.cfg) (hrx : ∀ s, (F s).rx = s.rx)
    (hwith : ∀ s rx, F (s.withRx rx) = (F s).withRx rx) {s t : State} (h : Safety.SameUpToStale s t) :
    Safety.SameUpToStale (F s) (F t) := by
  obtain ⟨rx, rfl, hsame⟩ := sameUpToStale_iff.1 h
  refine sameUpToStale_iff.2 ⟨rx, hwith s rx, ?_⟩
  rw [hcfg, hrx]
  exact hsame

theorem cfg_eq_of_sameUpToStale {s t : State} (h : Safety.SameUpToStale s t) : t.cfg = s.cfg := by
  obtain ⟨rx, rfl, -⟩ := sameUpToStale_iff.1 h
  rfl

theorem dispatch_sameOutcome {s t : State} (h : Safety.SameUpToStale s t) (src : Source) (id : Byte) (p : List Byte) :
    Safety.SameOutcome (dispatch src id p s) (dispatch src id p t) := by
  obtain ⟨F, hF, hd⟩ := dispatch_hasCommandEffect s.cfg src id p
  rw [hd s rfl, hd t (cfg_eq_of_sameUpToStale h)]
  have hdec : Safety.SameUpToStale (s.emitDec ⟨src, id, p⟩) (t.emitDec ⟨src, id, p⟩) :=
    sameUpToStale_map (F := (·.emitDec ⟨src, id, p⟩)) (fun _ => rfl) (fun _ => rfl) (fun _ _ => rfl) h
  exact sameUpToStale_map hF.cfg_eq hF.rx_eq hF.withRx hdec

theorem blockStep_sameOutcome {s t : State} (h : Safety.SameUpToStale s t) (f : List Byte) :
    Safety.SameOutcome (blockStep f s) (blockStep f t) := by
  by_cases hf : f.length = s.cfg.blockLen
  · cases f with
    | nil => rfl
    | cons id p =>
      have hs : blockStep (id :: p) s = dispatch .block id p s := if_pos hf
      have ht : blockStep (id :: p) t = dispatch .block id p t := if_pos (by rwa [cfg_eq_of_sameUpToStale h])
      rw [hs, ht]
      exact dispatch_sameOutcome h .block id p
  · rw [blockStep_refused hf, blockStep_refused (by rwa [cfg_eq_of_sameUpToStale h])]
    rfl

theorem streamStep_sameOutcome {s t : State} (h : Safety.SameUpToStale s t) (b : Byte) :
    Safety.SameOutcome (streamStep b s) (streamStep b t) := by
  obtain ⟨rx, rfl, hrx⟩ := sameUpToStale_iff.1 h
  have hregs : Safety.SameUpToStale (s.withRx (regsAfter s.cfg.maxBufLen b s.rx))
      ((s.withRx rx).withRx (regsAfter s.cfg.maxBufLen b rx)) :=
    sameUpToStale_iff.2 ⟨_, rfl, sameRegs_regsAfter hrx b⟩
  have hcmd : rx.cmd = s.rx.cmd := by rw [hrx.1]
  rw [streamStep_eq, streamStep_eq, Laws.withRx_cfg, Laws.withRx_rx, completedPayload_eq_of_sameRegs hrx b, hcmd]
  cases completedPayload s.cfg.maxBufLen b s.rx with
  | none => exact hregs
  | some p => exact dispatch_sameOutcome hregs .stream s.rx.cmd p

theorem step_of_not_wf {s : State} (hw : s.cfg.wf = false) : step s = .refused .invalidConfig := by
  simp [step, hw]

theorem step_of_inputs_nil {s : State} (hw : s.cfg.wf = true) (hi : s.inputs = []) : step s = .next s := by
  simp [step, nextOperation, hw, hi]

theorem perform_sameOutcome {s t : State} (h : Safety.SameUpToStale s t) (op : PortOp) :
    Safety.SameOutcome (perform op s) (perform op t) := by
  rcases perform_port_cases op with ⟨F, hF, hop⟩ | ⟨b, rfl⟩ | ⟨f, rfl⟩ | rfl
  · rw [hop, hop]
    exact sameUpToStale_map hF.cfg_eq hF.rx_eq hF.withRx h
  · exact streamStep_sameOutcome h b
  · exact blockStep_sameOutcome h f
  · obtain ⟨rx, rfl, -⟩ := sameUpToStale_iff.1 h
    exact ⟨rfl, rfl, fun _ => rfl⟩

theorem sameUpToStale_inputs {s t : State} (h : Safety.SameUpToStale s t) (ops : List PortOp) :
    Safety.SameUpToStale { s with inputs := ops } { t with inputs := ops } :=
  sameUpToStale_map (F := fun s => { s with inputs := ops }) (fun _ => rfl) (fun _ => rfl) (fun _ _ => rfl) h

/-- Settles O60: the record and the operations offered are the same on both sides, so both steps are refused, both wait,
or both perform the same operation. -/
theorem staleBufferUnobservable : Obligations.StaleBufferUnobservable := by
  intro s t h
  obtain ⟨rx, rfl, -⟩ := sameUpToStale_iff.1 h
  rcases Laws.step_cases s with ⟨hw, hs⟩ | ⟨hw, hi, hs⟩ | ⟨op, rest, hw, hi, hs⟩
  · rw [hs, step_of_not_wf (s := s.withRx rx) hw]
    rfl
  · rw [hs, step_of_inputs_nil (s := s.withRx rx) hw hi]
    exact h
  · rw [hs, Laws.step_of_inputs (s := s.withRx rx) hw hi]
    exact perform_sameOutcome (sameUpToStale_inputs h rest) op

end Sys2Proof.Proofs
end

section
/-! A write to an invalid address changes nothing (spec/20_memory.md R42). -/

namespace Sys2Proof.Proofs

open Sys2Proof.Machine

/-- R41: an address is invalid when its layer or its LED is out of range. -/
theorem valid_eq_false_iff {cfg : Config} {l e : Byte} :
    Config.valid cfg l e = false ↔ cfg.maxLayers ≤ l.toNat ∨ cfg.maxLeds ≤ e.toNat := by
  rw [Config.valid, Bool.and_eq_false_iff, decide_eq_false_iff_not, decide_eq_false_iff_not, Nat.not_lt, Nat.not_lt]

theorem updateEntry_of_invalid (s : State) {l e : Byte} (h : Config.valid s.cfg l e = false) (f : Entry → Entry) :
    s.updateEntry l e f = s := by
  rw [State.updateEntry, Laws.update_of_invalid _ f h]

theorem setUnderglowPair_of_invalid (s : State) {l : Byte} (h : ∀ e, Config.valid s.cfg l e = false) (c : Color) :
    s.setUnderglowPair l c = s := by
  rw [Laws.setUnderglowPair_eq, Laws.update_of_invalid _ _ (h _), Laws.update_of_invalid _ _ (h _)]

/-- A step whose operation writes one entry, at an invalid address, only takes the operation. -/
theorem step_of_invalid_write {s : State} {op : PortOp} {rest : List PortOp} {l e : Byte} {f : Entry → Entry}
    (hop : ∀ t, perform op t = .next (t.updateEntry l e f)) (hw : s.cfg.wf = true)
    (he : Config.valid s.cfg l e = false) (hi : s.inputs = op :: rest) :
    step s = .next { s with inputs := rest } := by
  rw [Laws.step_of_inputs hw hi, hop, updateEntry_of_invalid { s with inputs := rest } he f]

theorem step_of_invalid_pair {s : State} {rest : List PortOp} {l : Byte} {c : Color} (hw : s.cfg.wf = true)
    (hl : ∀ e, Config.valid s.cfg l e = false) (hi : s.inputs = .setUnderglowPair l c :: rest) :
    step s = .next { s with inputs := rest } :=
  (Laws.step_of_inputs hw hi).trans (congrArg _ (setUnderglowPair_of_invalid { s with inputs := rest } hl c))

/-- Settles O47: a single-entry write is one `updateEntry` at the invalid address, and the underglow pair is two at a
layer where every address is invalid. -/
theorem outOfRangeWritesIgnored : Obligations.OutOfRangeWritesIgnored := by
  intro s rest hw
  refine ⟨fun l e hout => ?_, fun l c hl => ?_⟩
  · have he : Config.valid s.cfg l e = false := valid_eq_false_iff.2 hout
    exact ⟨fun _ => step_of_invalid_write (fun _ => rfl) hw he, fun _ => step_of_invalid_write (fun _ => rfl) hw he,
      step_of_invalid_write (fun _ => rfl) hw he⟩
  · exact step_of_invalid_pair hw fun _ => valid_eq_false_iff.2 (.inl hl)

end Sys2Proof.Proofs
end

section
/-! From bytes to commands and back: which bytes decode to which command, for either frame format
(spec/30_encoding.md R60 to R65). -/

namespace Sys2Proof.Proofs

open Sys2Proof.Machine

@[simp] theorem name_ofName (c : CommandName) (src : Source) (p : List Byte) : (Instr.ofName c src p).name = c := by
  cases c <;> rfl

@[simp] theorem src_ofName (c : CommandName) (src : Source) (p : List Byte) : (Instr.ofName c src p).src = src := by
  cases c <;> rfl

@[simp] theorem payload_ofName (c : CommandName) (src : Source) (p : List Byte) :
    (Instr.ofName c src p).payload = p := by
  cases c <;> rfl

theorem ofName_name_src_payload (i : Instr) : Instr.ofName i.name i.src i.payload = i := by
  cases i <;> rfl

/-- R64: no other command has the id of `c`, so the lookup finds `c` wherever it stands in the list. -/
theorem lookupId_id {cfg : Config} (hw : cfg.wf = true) (c : CommandName) :
    lookupId cfg (cfg.cmdIds.id c) = some c := by
  obtain ⟨-, -, -, -, -, -, hinj⟩ := (configValidIff cfg).1 hw
  cases hl : lookupId cfg (cfg.cmdIds.id c) with
  | none => exact absurd (List.find?_eq_none.1 hl c (mem_commandName_all c)) (by simp)
  | some d => rw [hinj d c (Laws.lookupId_some hl)]

theorem lookupId_eq_none {cfg : Config} {id : Byte} (h : ∀ c, cfg.cmdIds.id c ≠ id) : lookupId cfg id = none :=
  List.find?_eq_none.2 fun c _ => by simpa using h c

theorem decodeCommand_id {cfg : Config} (hw : cfg.wf = true) (src : Source) (c : CommandName) (p : List Byte) :
    decodeCommand cfg src (cfg.cmdIds.id c) p = .ok (Instr.ofName c src p) := by
  simp [decodeCommand, lookupId_id hw]

/-- A command decoded under an id is of that id, path and payload; the record need not be valid. -/
theorem decodeCommand_ok {cfg : Config} {src : Source} {id : Byte} {p : List Byte} {i : Instr}
    (h : decodeCommand cfg src id p = .ok i) : cfg.cmdIds.id i.name = id ∧ i.src = src ∧ i.payload = p := by
  unfold decodeCommand at h
  cases hl : lookupId cfg id with
  | none => simp [hl] at h
  | some c =>
    obtain rfl : Instr.ofName c src p = i := by simpa [hl] using h
    simpa using Laws.lookupId_some hl

/-- Settles O20: the lookup finds the one command of a known id, and nothing for an unknown one. -/
theorem commandOfId : Obligations.CommandOfId := by
  intro cfg src id p hw
  refine ⟨?_, fun h => ?_⟩
  · rintro c rfl
    exact decodeCommand_id hw src c p
  · simp [decodeCommand, lookupId_eq_none h]

/-! ## Frames -/

/-- R63: the block frames are the `BLOCK_LEN` bytes of an id and a payload that decode as a command. -/
theorem decode_block_iff {cfg : Config} {bytes rest : List Byte} {i : Instr} :
    decode cfg .block bytes = .ok (i, rest) ↔
      ∃ id p, bytes = id :: p ++ rest ∧ p.length + 1 = cfg.blockLen ∧ decodeCommand cfg .block id p = .ok i := by
  constructor
  · intro h
    simp only [decode, decodeBlockFrame] at h
    split at h
    · cases h
    · next hlen =>
      split at h
      · cases h
      · next id p hp =>
        split at h
        · next j hj =>
          cases h
          refine ⟨id, p, ?_, ?_, hj⟩
          · rw [← hp, List.take_append_drop]
          · have hl := congrArg List.length hp
            simp only [List.length_take, List.length_cons] at hl
            omega
        · cases h
  · rintro ⟨id, p, rfl, hlen, hd⟩
    simp [decode, decodeBlockFrame, ← hlen, hd]

/-- R61, R62: the streaming frames are an id, a length byte and that many payload bytes, of which the first
`MAX_BUF_LEN` decode as the command's payload. -/
theorem decode_stream_iff {cfg : Config} {bytes rest : List Byte} {i : Instr} :
    decode cfg .stream bytes = .ok (i, rest) ↔
      ∃ id len p, bytes = id :: len :: (p ++ rest) ∧ p.length = len.toNat ∧
        decodeCommand cfg .stream id (p.take cfg.maxBufLen) = .ok i := by
  constructor
  · intro h
    match bytes, h with
    | id :: len :: tail, h =>
      simp only [decode, decodeStreamFrame] at h
      split at h
      · cases h
      · next hlen =>
        split at h
        · next j hj =>
          cases h
          refine ⟨id, len, tail.take len.toNat, by rw [List.take_append_drop], by simp; omega, ?_⟩
          rw [List.take_take, Nat.min_comm]
          exact hj
        · cases h
  · rintro ⟨id, len, p, rfl, hlen, hd⟩
    have hp : (p ++ rest).take (min p.length cfg.maxBufLen) = p.take cfg.maxBufLen := by
      rw [Nat.min_comm, ← List.take_take, List.take_left]
    simp [decode, decodeStreamFrame, hp, hd, ← hlen]

theorem encode_of_block {cfg : Config} {i : Instr} (h : i.src = .block) :
    encode cfg i = cfg.cmdIds.id i.name :: i.payload := by
  simp [encode, h]

theorem encode_of_stream {cfg : Config} {i : Instr} (h : i.src = .stream) :
    encode cfg i = cfg.cmdIds.id i.name :: BitVec.ofNat 8 i.payload.length :: i.payload := by
  simp [encode, h]

theorem wf_of_block {cfg : Config} {i : Instr} (h : i.src = .block) :
    i.wf cfg = true ↔ i.payload.length + 1 = cfg.blockLen := by
  simp [Instr.wf, h]

theorem wf_of_stream {cfg : Config} {i : Instr} (h : i.src = .stream) :
    i.wf cfg = true ↔ i.payload.length ≤ cfg.maxBufLen := by
  simp [Instr.wf, h]

/-- A payload that the buffer can hold has its length in one byte. -/
theorem toNat_ofNat_length {cfg : Config} (hw : cfg.wf = true) {p : List Byte} (hp : p.length ≤ cfg.maxBufLen) :
    (BitVec.ofNat 8 p.length).toNat = p.length := by
  obtain ⟨-, -, -, -, hbuf, -, -⟩ := (configValidIff cfg).1 hw
  rw [BitVec.toNat_ofNat, Nat.mod_eq_of_lt (by omega)]

/-- Settles O51: the encoded frame has the form that its path's decoder takes, and its id is that of its command. -/
theorem decodeOfEncode : Obligations.DecodeOfEncode := by
  intro cfg i rest hw hi
  have hd : decodeCommand cfg i.src (cfg.cmdIds.id i.name) i.payload = .ok i := by
    rw [decodeCommand_id hw, ofName_name_src_payload]
  cases hs : i.src with
  | stream =>
    have hlen := (wf_of_stream hs).1 hi
    rw [encode_of_stream hs, decode_stream_iff]
    refine ⟨_, _, i.payload, rfl, (toNat_ofNat_length hw hlen).symm, ?_⟩
    rw [List.take_of_length_le hlen, ← hs, hd]
  | block =>
    rw [encode_of_block hs, decode_block_iff]
    exact ⟨_, i.payload, rfl, (wf_of_block hs).1 hi, hs ▸ hd⟩

/-- Settles O52: the bytes of a frame are those of the command it decodes to, unless its payload was cut. -/
theorem encodeOfDecode : Obligations.EncodeOfDecode := by
  intro cfg bytes rest i
  refine ⟨fun h => ?_, fun id len h => ?_⟩
  · obtain ⟨id, p, rfl, hlen, hd⟩ := decode_block_iff.1 h
    obtain ⟨rfl, hsrc, rfl⟩ := decodeCommand_ok hd
    exact ⟨(wf_of_block hsrc).2 hlen, by rw [encode_of_block hsrc]⟩
  · obtain ⟨_, _, p, heq, hlen, hd⟩ := decode_stream_iff.1 h
    obtain ⟨rfl, rfl, rfl⟩ : id = _ ∧ len = _ ∧ bytes = _ := by simpa using heq
    obtain ⟨rfl, hsrc, hp⟩ := decodeCommand_ok hd
    refine ⟨(wf_of_stream hsrc).2 (hp ▸ List.length_take_le _ _), fun hfits => ?_⟩
    rw [List.take_of_length_le (hlen ▸ hfits)] at hp
    rw [encode_of_stream hsrc, hp, hlen, BitVec.ofNat_toNat, BitVec.setWidth_eq, List.cons_append, List.cons_append]

/-- Settles O1: a word is laid out as its id byte and seven zero bytes, and looked up under `REF_IDS`. -/
theorem tableWordsDecode : Obligations.TableWordsDecode := by
  unfold Obligations.TableWordsDecode
  decide

end Sys2Proof.Proofs
end

section
/-! What a command reads of its payload: whether it is short, and the bytes that its layout uses (spec/30_encoding.md
R66 to R69). -/

namespace Sys2Proof.Proofs

open Sys2Proof.Machine

/-- Settles O2: the table of `need` in listing order, and the fields by offset. -/
theorem payloadLayouts : Obligations.PayloadLayouts :=
  ⟨rfl, rfl, fun _ _ _ _ _ _ => ⟨rfl, rfl, rfl, rfl, rfl, rfl⟩⟩

/-- Padding with zero bytes adds no field that did not read `0x00` before (R68). -/
theorem field_append_zeros (p : List Byte) (n k : Nat) : field (p ++ List.replicate n 0x00) k = field p k := by
  by_cases hk : k < p.length
  · exact List.getD_append p _ _ k hk
  · have hp : p.length ≤ k := Nat.le_of_not_lt hk
    rw [field, field, List.getD_append_right _ _ _ _ hp, List.getD_eq_default _ _ hp]
    simp only [List.getD, List.getElem?_replicate]
    split <;> rfl

theorem field_take {p : List Byte} {n k : Nat} (hk : k < n) : field (p.take n) k = field p k := by
  simp [field, List.getD, List.getElem?_take_of_lt hk]

/-- R173: a payload shorter than `MAGIC` does not match it. -/
theorem magicMatches_of_short {p : List Byte} (h : p.length < 4) : magicMatches p = false := by
  rw [← Bool.not_eq_true, Laws.magicMatches_iff]
  intro hm
  have hl := congrArg List.length hm
  simp at hl
  omega

/-- R173: only the first four bytes are compared with `MAGIC`. -/
theorem magicMatches_take_four (p : List Byte) : magicMatches (p.take 4) = magicMatches p := by
  rw [magicMatches, magicMatches, List.take_take, Nat.min_self]

/-- R68 under `Ignore`, command by command: Reset without its magic does nothing, four commands have no short payload,
and the rest test for it. -/
theorem exec_of_skipped {c : CommandName} {src : Source} {p : List Byte} {s : State}
    (h : skipped s.cfg c p = true) : exec (Instr.ofName c src p) s = .next s := by
  obtain ⟨hlen, -⟩ := (Laws.skipped_iff s.cfg c p).1 h
  cases c with
  | reset => simp [Instr.ofName, exec, execReset, magicMatches_of_short hlen]
  | endCall | echo | connect | disconnect => exact absurd hlen (Nat.not_lt_zero _)
  | _ => exact congrArg Host.Outcome.next (if_pos h)

/-- Settles O38: a short payload is skipped under `Ignore`. -/
theorem ignoreSkipsShortPayload : Obligations.IgnoreSkipsShortPayload :=
  fun _ _ _ _ hi hlen => exec_of_skipped (Laws.skipped_of_short hlen hi)

theorem target_congr {v : Variant} {p q : List Byte} {n : Nat} (hn : need v .toggleIndicator ≤ n)
    (h : ∀ k < n, field p k = field q k) : layerField v p = layerField v q ∧ ledField v p = ledField v q := by
  cases v with
  | layered => exact ⟨h 0 (Nat.lt_of_lt_of_le Nat.two_pos hn), h 1 hn⟩
  | singleLayer => exact ⟨rfl, h 0 hn⟩

theorem colorField_congr {v : Variant} {p q : List Byte}
    (h : ∀ k < need v .setIndicatorColor, field p k = field q k) : colorField v p = colorField v q := by
  cases v with
  | layered =>
    have hf : ∀ k < 5, field p k = field q k := h
    simp [colorField, hf]
  | singleLayer =>
    have hf : ∀ k < 4, field p k = field q k := h
    simp [colorField, hf]

/-- A command other than Reset and Echo reads nothing of its payload but whether it is skipped and its first `need(c)`
bytes, where a missing byte counts as `0x00`. -/
theorem exec_congr_payload {c : CommandName} {p q : List Byte} {s : State} (src : Source) (hr : c ≠ .reset)
    (he : c ≠ .echo) (hs : skipped s.cfg c p = skipped s.cfg c q)
    (h : ∀ k < need s.cfg.variant c, field p k = field q k) :
    exec (Instr.ofName c src p) s = exec (Instr.ofName c src q) s := by
  cases c with
  | reset => exact absurd rfl hr
  | echo => exact absurd rfl he
  | endCall | connect | disconnect => rfl
  | toggleMatrix | activateLayer | setMuteStatus =>
    have hf : ∀ k < 1, field p k = field q k := h
    simp [Instr.ofName, exec, execToggleMatrix, execActivateLayer, execSetMuteStatus, State.request, hs, hf]
  | setMode | setSpeed =>
    have hf : ∀ k < 2, field p k = field q k := h
    simp [Instr.ofName, exec, execSetMode, execSetSpeed, State.request, hs, hf]
  | setMatrixColor =>
    have hf : ∀ k < 4, field p k = field q k := h
    simp [Instr.ofName, exec, execSetMatrixColor, State.request, hs, hf]
  | toggleIndicator | enableIndicator | disableIndicator =>
    obtain ⟨hl, hd⟩ := target_congr (Nat.le_refl _) h
    simp [Instr.ofName, exec, execToggleIndicator, execEnableIndicator, execDisableIndicator, hs, hl, hd]
  | setIndicatorColor =>
    have hn : need s.cfg.variant .toggleIndicator ≤ need s.cfg.variant .setIndicatorColor := by
      cases s.cfg.variant <;> decide
    obtain ⟨hl, hd⟩ := target_congr hn h
    simp [Instr.ofName, exec, execSetIndicatorColor, hs, hl, hd, colorField_congr h]

/-- Settles O37: padding with zero bytes changes no field, and under `ZeroFill` nothing is skipped. -/
theorem zeroFillPadsPayload : Obligations.ZeroFillPadsPayload := by
  intro c src p s hz hr he
  refine exec_congr_payload src hr he ?_ fun k _ => (field_append_zeros p _ k).symm
  rw [Laws.not_skipped (.inr hz), Laws.not_skipped (.inr hz)]

/-- Settles O39: the first `need(c)` bytes hold every field and are not short; Reset compares the first four only. -/
theorem excessBytesIgnored : Obligations.ExcessBytesIgnored := by
  intro c src p s he hn
  by_cases hr : c = .reset
  · subst hr
    simp only [Instr.ofName, exec, execReset, need, magicMatches_take_four]
  · have htake : need s.cfg.variant c ≤ (p.take (need s.cfg.variant c)).length := by
      rw [List.length_take_of_le hn]
    refine exec_congr_payload src hr he ?_ fun k hk => (field_take hk).symm
    rw [Laws.not_skipped (.inl hn), Laws.not_skipped (.inl htake)]

end Sys2Proof.Proofs
end

section
/-! One byte on the stream port, as a step of the machine (spec/40_stream_decoder.md R100 to R106, R110): the registers
are written, and a completed frame is dispatched in the same step. -/

namespace Sys2Proof.Proofs

open Sys2Proof.Machine

section

variable {rx : StreamRegs} (cap : Nat) (b : Byte)

theorem regsAfter_of_awCmd (h : rx.dst = .awCmd) : regsAfter cap b rx = rx.takeCommand b := by
  simp only [regsAfter, h]

theorem regsAfter_of_awLen (h : rx.dst = .awLen) : regsAfter cap b rx = rx.takeLength b := by
  simp only [regsAfter, h]

theorem regsAfter_of_awPay (h : rx.dst = .awPay) : regsAfter cap b rx = rx.takePayload cap b := by
  simp only [regsAfter, h]

theorem regsAfter_of_invalid (h : rx.dst = .invalid) : regsAfter cap b rx = rx.recover := by
  simp only [regsAfter, h]

theorem completedPayload_of_awCmd (h : rx.dst = .awCmd) : completedPayload cap b rx = none := by
  simp only [completedPayload, h]

theorem completedPayload_of_awLen (h : rx.dst = .awLen) :
    completedPayload cap b rx = if b = 0x00 then some [] else none := by
  simp only [completedPayload, h]

theorem completedPayload_of_awPay (h : rx.dst = .awPay) :
    completedPayload cap b rx =
      if rx.idx + 0x01 = rx.len then some ((rx.takePayload cap b).delivered cap) else none := by
  simp only [completedPayload, h]

theorem completedPayload_of_invalid (h : rx.dst = .invalid) : completedPayload cap b rx = none := by
  simp only [completedPayload, h]

end

/-- A dispatch under a valid record is what the statements say of one: the record's ids are injective, so the lookup
finds the one command that has the id (spec/30_encoding.md R65). -/
theorem dispatch_dispatches {s : State} (hw : s.cfg.wf = true) (src : Source) (id : Byte) (p : List Byte) :
    Safety.Dispatches (dispatch src id p s) src id p s := by
  refine ⟨?_, fun hid => dispatch_of_unknown (lookupId_eq_none hid) src p⟩
  rintro c rfl
  exact dispatch_of_known (lookupId_id hw c) src p

section

variable {s : State} {b : Byte} {rest : List PortOp} (hw : s.cfg.wf = true) (hi : s.inputs = .streamByte b :: rest)
include hw hi

theorem step_streamByte_eq : step s = (completedPayload s.cfg.maxBufLen b s.rx).elim
    (.next { s with inputs := rest, rx := regsAfter s.cfg.maxBufLen b s.rx })
    fun p => dispatch .stream s.rx.cmd p { s with inputs := rest, rx := regsAfter s.cfg.maxBufLen b s.rx } :=
  (Laws.step_of_inputs hw hi).trans (streamStep_eq b { s with inputs := rest })

/-- A byte that completes no frame changes the registers only. -/
theorem step_of_incomplete (hp : completedPayload s.cfg.maxBufLen b s.rx = none) :
    step s = .next { s with inputs := rest, rx := regsAfter s.cfg.maxBufLen b s.rx } := by
  rw [step_streamByte_eq hw hi, hp, Option.elim_none]

/-- A byte that completes a frame dispatches it after the registers are written. -/
theorem step_of_complete {p : List Byte} (hp : completedPayload s.cfg.maxBufLen b s.rx = some p) :
    step s = dispatch .stream s.rx.cmd p
      { s with inputs := rest, rx := regsAfter s.cfg.maxBufLen b s.rx } := by
  rw [step_streamByte_eq hw hi, hp, Option.elim_some]

theorem step_dispatches_of_complete {p : List Byte} (hp : completedPayload s.cfg.maxBufLen b s.rx = some p) :
    Safety.Dispatches (step s) .stream s.rx.cmd p
      { s with inputs := rest, rx := regsAfter s.cfg.maxBufLen b s.rx } := by
  rw [step_of_complete hw hi hp]
  exact dispatch_dispatches (s := { s with inputs := rest, rx := _ }) hw _ _ _

end

/-- Settles O12: no byte completes a frame in AwaitingCommand, and the registers take it by R101. -/
theorem streamAwaitingCommand : Obligations.StreamAwaitingCommand := by
  intro s b rest hw hi hd
  have hs := step_of_incomplete hw hi (completedPayload_of_awCmd _ b hd)
  rw [regsAfter_of_awCmd _ b hd] at hs
  exact ⟨_, hs, rfl, rfl, rfl⟩

/-- Settles O13: the length byte zero completes the frame without a payload. -/
theorem streamZeroLength : Obligations.StreamZeroLength := by
  intro s rest hw hi hd
  have hs := step_dispatches_of_complete hw hi ((completedPayload_of_awLen _ 0x00 hd).trans (if_pos rfl))
  rwa [regsAfter_of_awLen _ 0x00 hd] at hs

/-- Settles O14: any other length byte completes nothing, and its payload is awaited. -/
theorem streamNonzeroLength : Obligations.StreamNonzeroLength := by
  intro s b rest hw hi hd hb
  rw [step_of_incomplete hw hi ((completedPayload_of_awLen _ b hd).trans (if_neg hb)), regsAfter_of_awLen _ b hd,
    StreamRegs.takeLength, if_neg hb]

/-- Settles O15: a payload byte before the last completes nothing, and the registers store and count it by R104. -/
theorem streamStoresPayload : Obligations.StreamStoresPayload := by
  intro s b rest hw hi hd hlen
  rw [step_of_incomplete hw hi ((completedPayload_of_awPay _ b hd).trans (if_neg hlen)), regsAfter_of_awPay _ b hd,
    Laws.takePayload_incomplete hlen, ← hd]

/-- Settles O16: the last payload byte is in the buffer from which the payload is delivered. -/
theorem streamCompletesFrame : Obligations.StreamCompletesFrame := by
  intro s b rest hw hi hd hlen
  have hs := step_dispatches_of_complete hw hi ((completedPayload_of_awPay _ b hd).trans (if_pos hlen))
  rwa [regsAfter_of_awPay _ b hd, Laws.takePayload_complete hlen] at hs

/-- Settles O17: no byte completes a frame in an unrecognized state, and the registers recover by R106. -/
theorem streamRecovers : Obligations.StreamRecovers := by
  intro s b rest hw hi hd
  rw [step_of_incomplete hw hi (completedPayload_of_invalid _ b hd), regsAfter_of_invalid _ b hd]
  rfl

end Sys2Proof.Proofs
end

section
/-! A whole streaming frame in the decoder's registers (spec/40_stream_decoder.md R107, R108): which bytes complete it,
and what is delivered of its payload. -/

namespace Sys2Proof.Proofs

open Sys2Proof.Machine

/-- From the registers `rx`, the last of the bytes completes a frame with id `id` and payload `p`, no byte before it
completes one, and the registers are `rx'` then. -/
inductive Receives (cap : Nat) : StreamRegs → List Byte → Byte → List Byte → StreamRegs → Prop
  | last {rx : StreamRegs} {b : Byte} {p : List Byte} (hp : completedPayload cap b rx = some p) :
      Receives cap rx [b] rx.cmd p (regsAfter cap b rx)
  | byte {rx rx' : StreamRegs} {b id : Byte} {bs p : List Byte} (hp : completedPayload cap b rx = none)
      (h : Receives cap (regsAfter cap b rx) bs id p rx') : Receives cap rx (b :: bs) id p rx'

theorem regsAfter_length_buf (cap : Nat) (b : Byte) (rx : StreamRegs) :
    (regsAfter cap b rx).buf.length = rx.buf.length := by
  unfold regsAfter
  cases rx.dst with
  | awPay => exact takePayload_length_buf cap b rx
  | _ => rfl

/-- The byte that completes a frame leaves AwaitingCommand (spec/40_stream_decoder.md R102, R105). -/
theorem regsAfter_dst_of_complete {cap : Nat} {b : Byte} {rx : StreamRegs} {p : List Byte}
    (hp : completedPayload cap b rx = some p) : (regsAfter cap b rx).dst = .awCmd := by
  cases hd : rx.dst with
  | awLen =>
    rw [completedPayload_of_awLen cap b hd, Option.ite_some_none_eq_some] at hp
    rw [regsAfter_of_awLen cap b hd, Laws.takeLength_dst, if_pos hp.1]
  | awPay =>
    rw [completedPayload_of_awPay cap b hd, Option.ite_some_none_eq_some] at hp
    rw [regsAfter_of_awPay cap b hd, Laws.takePayload_dst, if_pos hp.1]
  | awCmd => cases (completedPayload_of_awCmd cap b hd).symm.trans hp
  | invalid => cases (completedPayload_of_invalid cap b hd).symm.trans hp

namespace Receives

variable {cap : Nat} {rx rx' : StreamRegs} {bs p : List Byte} {id : Byte} (h : Receives cap rx bs id p rx')
include h

theorem dst_eq : rx'.dst = .awCmd := by
  induction h with
  | last hp => exact regsAfter_dst_of_complete hp
  | byte hp h ih => exact ih

theorem length_buf : rx'.buf.length = rx.buf.length := by
  induction h with
  | last hp => exact regsAfter_length_buf _ _ _
  | byte hp h ih => exact ih.trans (regsAfter_length_buf _ _ _)

end Receives

/-- The registers inside a frame with id `id` that has brought the payload bytes `p` so far: they are counted, and those
within the capacity are stored. Nothing is said of the bytes of `buf` above them. -/
structure Receiving (cap : Nat) (id : Byte) (p : List Byte) (rx : StreamRegs) : Prop where
  dst : rx.dst = .awPay
  cmd : rx.cmd = id
  idx : rx.idx.toNat = p.length
  capacity : rx.buf.length = cap
  stored : rx.buf.take (min p.length cap) = p.take cap

/-- Storing the next byte, or dropping it at the capacity, keeps the buffer a copy of the payload cut to the capacity
(spec/40_stream_decoder.md R104). -/
theorem take_store {buf p : List Byte} {cap : Nat} (b : Byte) (hcap : buf.length = cap)
    (h : buf.take (min p.length cap) = p.take cap) :
    (if p.length < cap then buf.set p.length b else buf).take (min (p.length + 1) cap) = (p ++ [b]).take cap := by
  by_cases hp : p.length < cap
  · rw [Nat.min_eq_left hp.le, List.take_of_length_le hp.le] at h
    rw [if_pos hp, Nat.min_eq_left hp, List.take_of_length_le (l := p ++ [b]) (by simpa using hp),
      List.take_add_one, List.take_set_of_le (Nat.le_refl _), h, List.getElem?_set_self (hcap ▸ hp),
      Option.toList_some]
  · have hle : cap ≤ p.length := Nat.le_of_not_lt hp
    rw [Nat.min_eq_right hle] at h
    rw [if_neg hp, Nat.min_eq_right (hle.trans (Nat.le_succ _)), List.take_append_of_le_length hle, h]

namespace Receiving

variable {cap : Nat} {id : Byte} {p : List Byte} {rx : StreamRegs} (h : Receiving cap id p rx) (b : Byte)
include h

theorem take_buf_takePayload :
    (rx.takePayload cap b).buf.take (min (p.length + 1) cap) = (p ++ [b]).take cap := by
  rw [Laws.takePayload_buf, h.idx]
  exact take_store b h.capacity h.stored

/-- The fill index does not wrap inside a frame (spec/10_state.md R27). -/
theorem toNat_idx_add_one (hlen : p.length + 1 ≤ rx.len.toNat) : (rx.idx + 0x01).toNat = p.length + 1 := by
  have hidx := h.idx
  bv_omega

theorem idx_add_one_eq_len_iff (hlen : p.length + 1 ≤ rx.len.toNat) :
    rx.idx + 0x01 = rx.len ↔ p.length + 1 = rx.len.toNat := by
  rw [← BitVec.toNat_inj, h.toNat_idx_add_one hlen]

/-- A payload byte before the last leaves the frame being received, with one byte more. -/
theorem store (hlen : p.length + 1 < rx.len.toNat) : Receiving cap id (p ++ [b]) (rx.takePayload cap b) where
  dst := if_neg (mt (h.idx_add_one_eq_len_iff hlen.le).1 hlen.ne)
  cmd := h.cmd
  idx := by rw [Laws.takePayload_idx, h.toNat_idx_add_one hlen.le, List.length_append, List.length_singleton]
  capacity := (takePayload_length_buf cap b rx).trans h.capacity
  stored := by
    rw [List.length_append, List.length_singleton]
    exact h.take_buf_takePayload b

theorem completedPayload_of_lt (hlen : p.length + 1 < rx.len.toNat) : completedPayload cap b rx = none :=
  (completedPayload_of_awPay cap b h.dst).trans (if_neg (mt (h.idx_add_one_eq_len_iff hlen.le).1 hlen.ne))

/-- The last payload byte is delivered with those before it, cut to the capacity (spec/40_stream_decoder.md R105). -/
theorem completedPayload_of_eq (hlen : p.length + 1 = rx.len.toNat) :
    completedPayload cap b rx = some ((p ++ [b]).take cap) := by
  rw [completedPayload_of_awPay cap b h.dst, if_pos ((h.idx_add_one_eq_len_iff hlen.le).2 hlen), StreamRegs.delivered,
    Laws.takePayload_len, ← hlen, h.take_buf_takePayload b]

end Receiving

/-- The payload bytes still missing complete the frame. -/
theorem receives_payload {cap : Nat} {id : Byte} {p q : List Byte} {rx : StreamRegs} (h : Receiving cap id p rx)
    (hq : q ≠ []) (hlen : rx.len.toNat = p.length + q.length) :
    ∃ rx', Receives cap rx q id ((p ++ q).take cap) rx' := by
  induction q generalizing p rx with
  | nil => exact absurd rfl hq
  | cons b q ih =>
    rw [List.length_cons] at hlen
    by_cases hnil : q = []
    · subst hnil
      have hlast := Receives.last (h.completedPayload_of_eq b hlen.symm)
      rw [h.cmd] at hlast
      exact ⟨_, hlast⟩
    · have hlt : p.length + 1 < rx.len.toNat := by
        have := List.length_pos_iff.2 hnil
        omega
      obtain ⟨rx', hrest⟩ := ih (h.store b hlt) hnil
        (by rw [Laws.takePayload_len, List.length_append, List.length_singleton]; omega)
      rw [← regsAfter_of_awPay cap b h.dst, List.append_assoc, List.singleton_append] at hrest
      exact ⟨rx', .byte (h.completedPayload_of_lt b hlt) hrest⟩

/-- The id and a non-zero length begin a frame that has brought no payload byte yet, whatever the buffer holds. -/
theorem receiving_nil {cap : Nat} {rx : StreamRegs} (hbuf : rx.buf.length = cap) (id : Byte) {len : Byte}
    (hlen : len ≠ 0x00) : Receiving cap id [] ((rx.takeCommand id).takeLength len) where
  dst := if_neg hlen
  cmd := rfl
  idx := rfl
  capacity := hbuf
  stored := by simp

/-- A streaming frame of any id and any length of a byte is received whole from AwaitingCommand
(spec/40_stream_decoder.md R107, R108). -/
theorem receives_frame {cap : Nat} {rx : StreamRegs} (hd : rx.dst = .awCmd) (hbuf : rx.buf.length = cap) (id : Byte)
    {q : List Byte} (hq : q.length ≤ 255) :
    ∃ rx', Receives cap rx (id :: BitVec.ofNat 8 q.length :: q) id (q.take cap) rx' := by
  have htoNat : (BitVec.ofNat 8 q.length).toNat = q.length := Nat.mod_eq_of_lt (Nat.lt_succ_of_le hq)
  have hlenByte : regsAfter cap (BitVec.ofNat 8 q.length) (rx.takeCommand id) =
      (rx.takeCommand id).takeLength (BitVec.ofNat 8 q.length) := regsAfter_of_awLen _ _ rfl
  suffices hafter : ∃ rx', Receives cap (rx.takeCommand id) (BitVec.ofNat 8 q.length :: q) id (q.take cap) rx' by
    obtain ⟨rx', h⟩ := hafter
    rw [← regsAfter_of_awCmd cap id hd] at h
    exact ⟨rx', .byte (completedPayload_of_awCmd cap id hd) h⟩
  cases q with
  | nil => exact ⟨_, .last (by rw [List.take_nil]; rfl)⟩
  | cons b q =>
    have hne : BitVec.ofNat 8 (b :: q).length ≠ 0x00 := by
      intro h0
      rw [h0] at htoNat
      cases htoNat
    obtain ⟨rx', h⟩ := receives_payload (receiving_nil hbuf id hne) (List.cons_ne_nil b q)
      (htoNat.trans (Nat.zero_add _).symm)
    rw [← hlenByte] at h
    exact ⟨rx', .byte ((completedPayload_of_awLen cap _ rfl).trans (if_neg hne)) h⟩

end Sys2Proof.Proofs
end

section
/-! Runs over streaming frames (spec/40_stream_decoder.md R108, R109): a frame is dispatched once, on its last byte, and
any sequence of frames is decoded frame by frame. -/

namespace Sys2Proof.Proofs

open Sys2Proof.Machine

/-- Before the first step nothing is taken. -/
theorem runSteps_zero_of_inputs {s : State} {ops : List PortOp} (hi : s.inputs = ops) :
    ∃ rx, Safety.runSteps 0 s = .next { s with inputs := ops, rx := rx } :=
  ⟨s.rx, by rw [← hi]; rfl⟩

theorem runSteps_one (s : State) : Safety.runSteps 1 s = step s := by
  cases h : step s <;> simp only [Safety.runSteps, h]

theorem runSteps_succ_of_next {s t : State} (h : step s = .next t) (n : Nat) :
    Safety.runSteps (n + 1) s = Safety.runSteps n t := by
  simp only [Safety.runSteps, h]

theorem runSteps_add {s t : State} {m : Nat} (h : Safety.runSteps m s = .next t) (n : Nat) :
    Safety.runSteps (m + n) s = Safety.runSteps n t := by
  induction m generalizing s with
  | zero =>
    cases h
    rw [Nat.zero_add]
  | succ m ih =>
    rw [Nat.succ_add]
    cases hs : step s with
    | next u =>
      rw [runSteps_succ_of_next hs] at h ⊢
      exact ih h
    | fault r => simp [Safety.runSteps, hs] at h
    | refused r => simp [Safety.runSteps, hs] at h

/-- Feeding the bytes of a frame: before the last one only the registers change and the bytes are taken, and the last
one dispatches the frame. -/
theorem runSteps_of_receives {cap : Nat} {rx rx' : StreamRegs} {bs p : List Byte} {id : Byte}
    (h : Receives cap rx bs id p rx') {s : State} {rest : List PortOp} (hw : s.cfg.wf = true)
    (hcap : s.cfg.maxBufLen = cap) (hrx : s.rx = rx) (hi : s.inputs = bs.map .streamByte ++ rest) :
    (∀ k, k < bs.length → ∃ r, Safety.runSteps k s =
      .next { s with inputs := (bs.map .streamByte).drop k ++ rest, rx := r }) ∧
    Safety.runSteps bs.length s = dispatch .stream id p { s with inputs := rest, rx := rx' } := by
  induction h generalizing s with
  | last hp =>
    subst hcap hrx
    refine ⟨fun k hk => ?_, (runSteps_one s).trans (step_of_complete hw hi hp)⟩
    cases Nat.lt_one_iff.1 hk
    exact runSteps_zero_of_inputs hi
  | @byte _ _ b _ bs _ hp h ih =>
    subst hcap hrx
    have hs := step_of_incomplete hw hi hp
    obtain ⟨hbefore, hlast⟩ := ih (s := { s with
      inputs := bs.map .streamByte ++ rest
      rx := regsAfter s.cfg.maxBufLen b s.rx }) hw rfl rfl rfl
    refine ⟨fun k hk => ?_, (runSteps_succ_of_next hs _).trans hlast⟩
    cases k with
    | zero => exact runSteps_zero_of_inputs hi
    | succ k =>
      obtain ⟨r, hr⟩ := hbefore k (Nat.lt_of_succ_lt_succ hk)
      exact ⟨r, (runSteps_succ_of_next hs k).trans hr⟩

/-- A valid record, and the decoder waiting for a command id with a buffer of `MAX_BUF_LEN` bytes. -/
structure BetweenFrames (s : State) : Prop where
  wf : s.cfg.wf = true
  dst : s.rx.dst = .awCmd
  capacity : s.rx.buf.length = s.cfg.maxBufLen

/-- A frame offered between frames is dispatched on its last byte, and the registers wait for the next frame. -/
theorem runSteps_streamFrame {s : State} (hs : BetweenFrames s) {f : Byte × List Byte} (hf : f.2.length ≤ 255)
    {rest : List PortOp} (hi : s.inputs = Safety.streamOps f ++ rest) :
    (∀ k, k < (Safety.streamOps f).length → ∃ rx, Safety.runSteps k s =
      .next { s with inputs := (Safety.streamOps f).drop k ++ rest, rx := rx }) ∧
    ∃ rx : StreamRegs, rx.dst = .awCmd ∧ rx.buf.length = s.cfg.maxBufLen ∧
      Safety.runSteps (Safety.streamOps f).length s =
        dispatch .stream f.1 (f.2.take s.cfg.maxBufLen) { s with inputs := rest, rx := rx } := by
  obtain ⟨rx, h⟩ := receives_frame hs.dst hs.capacity f.1 hf
  obtain ⟨hbefore, hlast⟩ := runSteps_of_receives h hs.wf rfl rfl hi
  rw [← List.length_map (f := PortOp.streamByte)] at hbefore hlast
  exact ⟨hbefore, rx, h.dst_eq, h.length_buf.trans hs.capacity, hlast⟩

theorem length_streamOps (f : Byte × List Byte) : (Safety.streamOps f).length = 2 + f.2.length := by
  rw [Safety.streamOps, List.length_map, List.length_cons, List.length_cons, Nat.add_comm 2]

/-- Settles O53: the run over the frame's bytes, with the dispatch on the last of them. -/
theorem streamFrameDispatchedOnce : Obligations.StreamFrameDispatchedOnce := by
  intro s id q rest hw hd hbuf hq hi
  obtain ⟨hbefore, rx, hdst, -, hlast⟩ := runSteps_streamFrame (f := (id, q)) ⟨hw, hd, hbuf⟩ hq hi
  rw [length_streamOps] at hbefore hlast
  refine ⟨hbefore, rx, hdst, ?_⟩
  rw [hlast]
  exact dispatch_dispatches (s := { s with inputs := rest, rx := rx }) hw _ _ _

/-- A frame offered between frames is recorded on `DEC`, and the state is between frames again: its command does not
touch the registers, the record, the operations offered or `DEC`. -/
theorem runSteps_streamFrame_next {s : State} (hs : BetweenFrames s) {f : Byte × List Byte} (hf : f.2.length ≤ 255)
    {rest : List PortOp} (hi : s.inputs = Safety.streamOps f ++ rest) :
    ∃ t, Safety.runSteps (Safety.streamOps f).length s = .next t ∧ BetweenFrames t ∧ t.cfg = s.cfg ∧
      t.inputs = rest ∧ t.decTrace = s.decTrace ++ [Safety.streamEvent s.cfg f] := by
  obtain ⟨-, rx, hdst, hbuf, hlast⟩ := runSteps_streamFrame hs hf hi
  obtain ⟨F, hF, hdispatch⟩ := dispatch_hasCommandEffect s.cfg .stream f.1 (f.2.take s.cfg.maxBufLen)
  have hcfg := hF.cfg_eq (State.emitDec { s with inputs := rest, rx := rx } (Safety.streamEvent s.cfg f))
  have hrx := hF.rx_eq (State.emitDec { s with inputs := rest, rx := rx } (Safety.streamEvent s.cfg f))
  refine ⟨_, hlast.trans (hdispatch _ rfl), ⟨?_, ?_, ?_⟩, hcfg, hF.inputs_eq _, hF.decTrace_eq _⟩
  · exact (congrArg Config.wf hcfg).trans hs.wf
  · exact (congrArg StreamRegs.dst hrx).trans hdst
  · exact ((congrArg (·.buf.length) hrx).trans hbuf).trans (congrArg Config.maxBufLen hcfg).symm

/-- Settles O54, by induction on the list of frames: each leaves the state between frames for the next. -/
theorem streamStaysInSync : Obligations.StreamStaysInSync := by
  intro frames s rest hw hd hbuf hlen hi
  have hs : BetweenFrames s := ⟨hw, hd, hbuf⟩
  clear hw hd hbuf
  induction frames generalizing s with
  | nil => exact ⟨s, rfl, hs.dst, hi, (List.append_nil _).symm⟩
  | cons f frames ih =>
    obtain ⟨hf, hframes⟩ := List.forall_mem_cons.1 hlen
    rw [List.flatMap_cons, List.append_assoc] at hi
    obtain ⟨u, hu, hbetween, hcfg, hinputs, hdec⟩ := runSteps_streamFrame_next hs hf hi
    obtain ⟨t, ht, hdst, hrest, htdec⟩ := ih u hframes hinputs hbetween
    refine ⟨t, ?_, hdst, hrest, ?_⟩
    · rw [List.flatMap_cons, List.length_append, runSteps_add hu, ht]
    · rw [htdec, hdec, hcfg, List.append_assoc, List.map_cons, List.singleton_append]

end Sys2Proof.Proofs
end

section
/-! One frame on the block port, as a step of the machine, and what a command does with the path by which its frame
came (spec/41_block_decoder.md R120, R123). -/

namespace Sys2Proof.Proofs

open Sys2Proof.Machine

/-- A block frame of the port's length is dispatched in the step that takes it. -/
theorem step_blockFrame_eq {s : State} {id : Byte} {p : List Byte} {rest : List PortOp} (hw : s.cfg.wf = true)
    (hi : s.inputs = .blockFrame (id :: p) :: rest) (hp : p.length + 1 = s.cfg.blockLen) :
    step s = dispatch .block id p { s with inputs := rest } :=
  (Laws.step_of_inputs hw hi).trans (if_pos hp)

/-- Settles O18: the step is the dispatch of the whole frame, and a block frame is one of the operations that keep the
decoder registers. -/
theorem blockStepDispatches : Obligations.BlockStepDispatches := by
  intro s id p rest hw hi hp
  constructor
  · rw [step_blockFrame_eq hw hi hp]
    exact dispatch_dispatches (s := { s with inputs := rest }) hw .block id p
  · intro t ht
    obtain ⟨hrx, -⟩ := otherPortsKeepDecoder s t (.blockFrame (id :: p)) rest hi (by simp) (by simp) ht
    exact hrx

/-- Settles O40, command by command: Echo's is the only rule that is given the path. -/
theorem sameDispatchBothPaths : Obligations.SameDispatchBothPaths := by
  intro c p s he
  cases c with
  | echo => exact absurd rfl he
  | _ => rfl

end Sys2Proof.Proofs
end

section
/-! The indicator array's ports, as steps of the machine: what the writes change and leave, what the reads return, and
how single-entry writes compose (spec/42_indicator_array.md R131 to R136, R138, R139). -/

namespace Sys2Proof.Proofs

open Sys2Proof.Machine

/-! ## Writes -/

theorem entryWritten_updateEntry (s : State) (l e : Byte) (f : Entry → Entry) :
    Safety.EntryWritten s (s.updateEntry l e f) l e (f (s.entryAt l e)) :=
  ⟨rfl, fun h => updateEntry_of_invalid s h f, Laws.read_update s.cfg s.array l e f⟩

/-- The step of an operation that writes one entry is that write, complete. -/
theorem step_writes_entry {s : State} {op : PortOp} {rest : List PortOp} {l e : Byte} {f : Entry → Entry}
    (hop : ∀ t, perform op t = .next (t.updateEntry l e f)) (hw : s.cfg.wf = true) (hi : s.inputs = op :: rest) :
    ∃ t, step s = .next t ∧ Safety.EntryWritten { s with inputs := rest } t l e (f (s.entryAt l e)) :=
  ⟨_, (Laws.step_of_inputs hw hi).trans (hop _), entryWritten_updateEntry { s with inputs := rest } l e f⟩

/-- Settles O41: the write replaces the colour of the entry it reads. -/
theorem setColorPort : Obligations.SetColorPort := fun _ _ _ c _ hw hi =>
  step_writes_entry (f := fun x => { x with color := c }) (fun _ => rfl) hw hi

/-- Settles O42: the write replaces the enable bit of the entry it reads. -/
theorem setEnabledPort : Obligations.SetEnabledPort := fun _ _ _ v _ hw hi =>
  step_writes_entry (f := fun x => { x with enabled := v }) (fun _ => rfl) hw hi

/-- Settles O43: the write inverts the enable bit of the entry it reads. -/
theorem toggleEnabledPort : Obligations.ToggleEnabledPort := fun _ _ _ _ hw hi =>
  step_writes_entry (f := fun x => { x with enabled := !x.enabled }) (fun _ => rfl) hw hi

/-- What every address reads after the two writes of the pair. That the second LED may be the first (R134) makes no
difference, since the value written does not depend on the entry it replaces. -/
theorem read_setUnderglowPair (s : State) (l : Byte) (c : Color) (a : Nat) :
    (s.setUnderglowPair l c).array.read a =
      if (Config.valid s.cfg l s.cfg.ugLeft = true ∧ a = address l s.cfg.ugLeft) ∨
          (Config.valid s.cfg l s.cfg.ugRight = true ∧ a = address l s.cfg.ugRight)
      then ⟨true, c⟩ else s.array.read a := by
  rw [Laws.setUnderglowPair_eq, Laws.read_update, Laws.read_update, ite_or]
  split <;> split <;> rfl

/-- Settles O44: the step is the two writes of the pair. -/
theorem underglowPairPort : Obligations.UnderglowPairPort := fun s l c rest hw hi =>
  ⟨_, Laws.step_of_inputs hw hi, rfl, read_setUnderglowPair { s with inputs := rest } l c⟩

/-! ## Reads -/

theorem valid_eq_true_iff {cfg : Config} {l e : Byte} :
    Config.valid cfg l e = true ↔ l.toNat < cfg.maxLayers ∧ e.toNat < cfg.maxLeds := by
  rw [Config.valid, Bool.and_eq_true, decide_eq_true_iff, decide_eq_true_iff]

/-- Settles O45: the value returned is read at the address if it is valid (R41), and the read is recorded. -/
theorem readEntryPort : Obligations.ReadEntryPort := by
  intro s l e rest hw hi
  simp only [← valid_eq_true_iff]
  exact Laws.step_of_inputs hw hi

theorem colorsForLayer_of_invalid {s : State} {l : Byte} (h : s.cfg.maxLayers ≤ l.toNat) : s.colorsForLayer l = [] :=
  if_neg (Nat.not_lt.2 h)

theorem maxLeds_le_of_wf {cfg : Config} (hw : cfg.wf = true) : cfg.maxLeds ≤ 256 := by
  obtain ⟨-, -, -, h, -⟩ := (configValidIff cfg).1 hw
  exact h

/-- An LED index of a valid record is the value of the byte that addresses it (spec/00_scope.md R6). -/
theorem toNat_ofNat_led {cfg : Config} (hw : cfg.wf = true) {n : Nat} (hn : n < cfg.maxLeds) :
    (BitVec.ofNat 8 n).toNat = n :=
  Nat.mod_eq_of_lt (Nat.lt_of_lt_of_le hn (maxLeds_le_of_wf hw))

theorem mem_colorsForLayer {s : State} (hw : s.cfg.wf = true) (l e : Byte) (c : Color) :
    (e, c) ∈ s.colorsForLayer l ↔ l.toNat < s.cfg.maxLayers ∧ e.toNat < s.cfg.maxLeds ∧
      (s.entryAt l e).enabled = true ∧ (s.entryAt l e).color = c := by
  by_cases hl : l.toNat < s.cfg.maxLayers
  · simp only [State.colorsForLayer, hl, if_true, true_and, List.mem_filterMap, List.mem_range,
      Option.ite_none_right_eq_some, Option.some.injEq, Prod.mk.injEq]
    constructor
    · rintro ⟨n, hn, hen, rfl, hc⟩
      exact ⟨(toNat_ofNat_led hw hn).symm ▸ hn, hen, hc⟩
    · rintro ⟨he, hen, hc⟩
      exact ⟨e.toNat, he, by simpa using ⟨hen, hc⟩⟩
  · simp [colorsForLayer_of_invalid (Nat.not_lt.1 hl), hl]

/-- The LEDs come in the order in which the layer is scanned. -/
theorem colorsForLayer_ascending {s : State} (hw : s.cfg.wf = true) (l : Byte) :
    (s.colorsForLayer l).Pairwise fun x y => x.1.toNat < y.1.toNat := by
  unfold State.colorsForLayer
  split
  · refine List.pairwise_filterMap.2 (List.pairwise_lt_range.imp_of_mem fun {m n} hm hn hlt x hx y hy => ?_)
    obtain ⟨-, ⟨⟩⟩ := Option.ite_none_right_eq_some.1 hx
    obtain ⟨-, ⟨⟩⟩ := Option.ite_none_right_eq_some.1 hy
    show (BitVec.ofNat 8 m).toNat < (BitVec.ofNat 8 n).toNat
    rwa [toNat_ofNat_led hw (List.mem_range.1 hm), toNat_ofNat_led hw (List.mem_range.1 hn)]
  · exact .nil

/-- Settles O46: the step returns the list of the layer's enabled LEDs and records it. -/
theorem colorsForLayerPort : Obligations.ColorsForLayerPort := fun s l _ hw hi =>
  ⟨s.colorsForLayer l, Laws.step_of_inputs hw hi, colorsForLayer_of_invalid, colorsForLayer_ascending hw l,
    mem_colorsForLayer hw l⟩

/-! ## Two single-entry writes -/

/-- Two writes to one entry are one write of the composed update. -/
theorem update_update_same (cfg : Config) {m : Memory} (hm : m.wf) (l e : Byte) (f g : Entry → Entry) :
    (m.update cfg l e f).update cfg l e g = m.update cfg l e fun x => g (f x) := by
  refine equalReadsEqualArrays _ _ (Laws.update_wf _ _ _ _ (Laws.update_wf _ _ _ _ hm))
    (Laws.update_wf _ _ _ _ hm) fun a => ?_
  simp only [Laws.read_update]
  split
  · next h => simp [h.1]
  · rfl

/-- A write that puts back what it reads changes nothing, the representation included. -/
theorem update_id (cfg : Config) {m : Memory} (hm : m.wf) (l e : Byte) : (m.update cfg l e fun x => x) = m := by
  refine equalReadsEqualArrays _ _ (Laws.update_wf _ _ _ _ hm) hm fun a => ?_
  rw [Laws.read_update]
  split
  · next h => rw [h.2]
  · rfl

/-- Two writes commute if their updates do whenever they address the same entry; different entries have
different addresses (spec/10_state.md R30). -/
theorem update_comm (cfg : Config) {m : Memory} (hm : m.wf) {l e l' e' : Byte} {f g : Entry → Entry}
    (hfg : (l, e) = (l', e') → ∀ x, g (f x) = f (g x)) :
    (m.update cfg l e f).update cfg l' e' g = (m.update cfg l' e' g).update cfg l e f := by
  by_cases hsame : (l, e) = (l', e')
  · cases hsame
    rw [update_update_same cfg hm, update_update_same cfg hm]
    exact congrArg _ (funext (hfg rfl))
  · have hne : address l e ≠ address l' e' := fun h =>
      hsame (Prod.ext (Laws.address_injective h).1 (Laws.address_injective h).2)
    refine equalReadsEqualArrays _ _ (Laws.update_wf _ _ _ _ (Laws.update_wf _ _ _ _ hm))
      (Laws.update_wf _ _ _ _ (Laws.update_wf _ _ _ _ hm)) fun a => ?_
    simp only [Laws.read_update, hne, hne.symm, and_false, if_false]
    split
    · next h => rw [if_neg fun h' => hne (h'.2.symm.trans h.2)]
    · rfl

/-- Two steps whose operations each write one entry. -/
theorem runSteps_two_writes {s : State} {op op' : PortOp} {rest : List PortOp} {l e l' e' : Byte}
    {f g : Entry → Entry} (hop : ∀ t, perform op t = .next (t.updateEntry l e f))
    (hop' : ∀ t, perform op' t = .next (t.updateEntry l' e' g)) (hw : s.cfg.wf = true)
    (hi : s.inputs = op :: op' :: rest) :
    Safety.runSteps 2 s = .next { s with
      inputs := rest
      array := (s.array.update s.cfg l e f).update s.cfg l' e' g } := by
  rw [runSteps_succ_of_next ((Laws.step_of_inputs hw hi).trans (hop _)), runSteps_one]
  exact (Laws.step_of_inputs (s := State.updateEntry { s with inputs := op' :: rest } l e f) hw rfl).trans (hop' _)

/-- Settles O48: the second inversion of the enable bit undoes the first. -/
theorem toggleTwiceRestores : Obligations.ToggleTwiceRestores := by
  intro s l e rest hw hm hi
  rw [runSteps_two_writes (f := fun x => { x with enabled := !x.enabled })
    (g := fun x => { x with enabled := !x.enabled }) (fun _ => rfl) (fun _ => rfl) hw hi, update_update_same _ hm]
  simp only [Bool.not_not, update_id _ hm]

/-- A single-entry write of the port is one update of the entry it addresses, whatever the state. -/
theorem perform_of_writtenEntry {op : PortOp} {l e : Byte} (h : Safety.writtenEntry op = some (l, e)) :
    ∃ f, ∀ s, perform op s = .next (s.updateEntry l e f) := by
  cases op with
  | setColor | setEnabled | toggleEnabled =>
    cases h
    exact ⟨_, fun _ => rfl⟩
  | _ => cases h

/-- Two operations that each write one entry can be taken in either order if their writes commute. -/
theorem runSteps_two_writes_comm {s : State} {op op' : PortOp} (rest : List PortOp) {l e l' e' : Byte}
    {f g : Entry → Entry} (hop : ∀ t, perform op t = .next (t.updateEntry l e f))
    (hop' : ∀ t, perform op' t = .next (t.updateEntry l' e' g)) (hw : s.cfg.wf = true) (hm : s.array.wf)
    (hfg : (l, e) = (l', e') → ∀ x, g (f x) = f (g x)) :
    Safety.runSteps 2 { s with inputs := op :: op' :: rest } =
      Safety.runSteps 2 { s with inputs := op' :: op :: rest } := by
  rw [runSteps_two_writes (s := { s with inputs := op :: op' :: rest }) hop hop' hw rfl,
    runSteps_two_writes (s := { s with inputs := op' :: op :: rest }) hop' hop hw rfl, update_comm s.cfg hm hfg]

/-- Settles O49: writes to different entries commute whatever they write, and on one entry the colour and the enable bit
are separate fields. -/
theorem arrayWritesCommute : Obligations.ArrayWritesCommute := by
  rintro s op op' rest hw hm (⟨⟨l, e⟩, ⟨l', e'⟩, hx, hy, hne⟩ | ⟨l, e, c, v, rfl, rfl⟩)
  · obtain ⟨f, hf⟩ := perform_of_writtenEntry hx
    obtain ⟨g, hg⟩ := perform_of_writtenEntry hy
    exact runSteps_two_writes_comm rest hf hg hw hm fun h => absurd h hne
  · exact runSteps_two_writes_comm rest (f := fun x => { x with color := c }) (g := fun x => { x with enabled := v })
      (fun _ => rfl) (fun _ => rfl) hw hm fun _ _ => rfl

end Sys2Proof.Proofs
end

section
/-! The four indicator commands: each is one single-entry write at the target of R150, unless its payload is short and
ignored (spec/43_indicator_commands.md R150 to R154; spec/30_encoding.md R68). -/

namespace Sys2Proof.Proofs

open Sys2Proof.Machine

/-- R64, R65: under a valid record every command is encoded by its `CMD_ID`, whatever the payload and the path. -/
theorem encodedAs_id (c : CommandName) : Safety.EncodedAs c (CmdIds.ref.id c) :=
  ⟨rfl, fun _ src p hw => decodeCommand_id hw src c p⟩

/-! ## The rule of each command, by the entry update it makes -/

section
variable (src : Source) (p : List Byte) (s : State)

theorem exec_toggleIndicator : exec (.toggleIndicator src p) s = .next (if skipped s.cfg .toggleIndicator p then s
    else s.updateEntry (layerField s.cfg.variant p) (ledField s.cfg.variant p)
      fun x => { x with enabled := !x.enabled }) := rfl

theorem exec_setIndicatorColor : exec (.setIndicatorColor src p) s = .next (if skipped s.cfg .setIndicatorColor p then s
    else s.updateEntry (layerField s.cfg.variant p) (ledField s.cfg.variant p)
      fun x => { x with color := colorField s.cfg.variant p }) := rfl

theorem exec_enableIndicator : exec (.enableIndicator src p) s = .next (if skipped s.cfg .enableIndicator p then s
    else s.updateEntry (layerField s.cfg.variant p) (ledField s.cfg.variant p)
      fun x => { x with enabled := true }) := rfl

theorem exec_disableIndicator : exec (.disableIndicator src p) s = .next (if skipped s.cfg .disableIndicator p then s
    else s.updateEntry (layerField s.cfg.variant p) (ledField s.cfg.variant p)
      fun x => { x with enabled := false }) := rfl

end

/-- The two cases of an entry update behind the check of R68: skipped, it changes nothing; otherwise it is the write of
one entry, complete. -/
theorem skip_or_write {o : Host.Outcome State Fault Refusal} {c : CommandName} {p : List Byte} {s : State} {l e : Byte}
    {f : Entry → Entry} (ho : o = .next (if skipped s.cfg c p then s else s.updateEntry l e f)) :
    (p.length < need s.cfg.variant c → s.cfg.shortPayload = .ignore → o = .next s) ∧
      (need s.cfg.variant c ≤ p.length ∨ s.cfg.shortPayload = .zeroFill →
        ∃ t, o = .next t ∧ Safety.EntryWritten s t l e (f (s.entryAt l e))) := by
  subst ho
  constructor
  · intro hlen hi
    rw [if_pos (Laws.skipped_of_short hlen hi)]
  · intro h
    rw [Laws.not_skipped h, if_neg Bool.false_ne_true]
    exact ⟨_, rfl, entryWritten_updateEntry s l e f⟩

/-- Settles O21: unless skipped, the command is the write that inverts the enable bit of the target. -/
theorem toggleIndicatorInverts : Obligations.ToggleIndicatorInverts :=
  ⟨encodedAs_id .toggleIndicator, fun src p s => skip_or_write (exec_toggleIndicator src p s)⟩

/-- Settles O22: unless skipped, the command is the write that replaces the colour of the target. -/
theorem setIndicatorColorOverwrites : Obligations.SetIndicatorColorOverwrites :=
  ⟨encodedAs_id .setIndicatorColor, fun src p s => skip_or_write (exec_setIndicatorColor src p s)⟩

/-- Settles O23: unless skipped, the command is the write that sets the enable bit of the target. -/
theorem enableIndicatorSets : Obligations.EnableIndicatorSets :=
  ⟨encodedAs_id .enableIndicator, fun src p s => skip_or_write (exec_enableIndicator src p s)⟩

/-- Settles O24: unless skipped, the command is the write that clears the enable bit of the target. -/
theorem disableIndicatorClears : Obligations.DisableIndicatorClears :=
  ⟨encodedAs_id .disableIndicator, fun src p s => skip_or_write (exec_disableIndicator src p s)⟩

end Sys2Proof.Proofs
end

section
/-! The eleven pass-through commands: each is at most one request, the one that the table of R173 to R183 gives for the
decoded command (spec/44_passthrough_commands.md R172 to R183). -/

namespace Sys2Proof.Proofs

open Sys2Proof.Machine

/-- R172, in the terms of the payload: what `request` does turns on the length that the layout needs. -/
theorem request_eq_ite (s : State) (c : CommandName) (p : List Byte) (r : Request) :
    s.request c p r = if p.length < need s.cfg.variant c ∧ s.cfg.shortPayload = .ignore then s
      else { s with reqTrace := s.reqTrace ++ [r] } := by
  simp only [State.request, Laws.skipped_iff]
  rfl

/-- R173, in the terms of the payload: `MAGIC` is spelled out. -/
theorem exec_reset (src : Source) (p : List Byte) (s : State) :
    exec (.reset src p) s = .next (if p.take 4 = [0xDE, 0xAD, 0xF0, 0x00] then s.emitReq .hardReset else s) := by
  simp only [exec, execReset, Laws.magicMatches_iff]

/-- Settles O25: the test for `MAGIC` is the only condition, whatever the length of the payload. -/
theorem resetCommandNeedsMagic : Obligations.ResetCommandNeedsMagic :=
  ⟨encodedAs_id .reset, exec_reset⟩

/-- Settles O26: the rule is one request from a layout of two bytes. -/
theorem setModeRequests : Obligations.SetModeRequests :=
  ⟨encodedAs_id .setMode, fun _ p s => congrArg Host.Outcome.next (request_eq_ite s .setMode p _)⟩

/-- Settles O27: the rule is one request from a layout of one byte. -/
theorem toggleMatrixRequests : Obligations.ToggleMatrixRequests :=
  ⟨encodedAs_id .toggleMatrix, fun _ p s => congrArg Host.Outcome.next (request_eq_ite s .toggleMatrix p _)⟩

/-- Settles O28: the rule is one request from a layout of four bytes. -/
theorem setMatrixColorRequests : Obligations.SetMatrixColorRequests :=
  ⟨encodedAs_id .setMatrixColor, fun _ p s => congrArg Host.Outcome.next (request_eq_ite s .setMatrixColor p _)⟩

/-- Settles O29: the rule is one request from a layout of one byte. -/
theorem activateLayerRequests : Obligations.ActivateLayerRequests :=
  ⟨encodedAs_id .activateLayer, fun _ p s => congrArg Host.Outcome.next (request_eq_ite s .activateLayer p _)⟩

/-- Settles O30: the rule is one request from a layout of two bytes. -/
theorem setSpeedRequests : Obligations.SetSpeedRequests :=
  ⟨encodedAs_id .setSpeed, fun _ p s => congrArg Host.Outcome.next (request_eq_ite s .setSpeed p _)⟩

/-- Settles O31: the rule is one request from a layout of one byte. -/
theorem setMuteStatusRequests : Obligations.SetMuteStatusRequests :=
  ⟨encodedAs_id .setMuteStatus, fun _ p s => congrArg Host.Outcome.next (request_eq_ite s .setMuteStatus p _)⟩

/-- Settles O32: the rule is not given the payload, and emits without a condition. -/
theorem endCallRequests : Obligations.EndCallRequests :=
  ⟨encodedAs_id .endCall, fun _ _ _ => rfl⟩

/-- Settles O33: the rule emits without a condition, by the path; the block path puts the id back in front. -/
theorem echoReturnsBytes : Obligations.EchoReturnsBytes :=
  ⟨encodedAs_id .echo, fun _ _ => ⟨rfl, rfl⟩⟩

/-- Settles O34: the rule is not given the payload, and emits without a condition. -/
theorem connectRequests : Obligations.ConnectRequests :=
  ⟨encodedAs_id .connect, fun _ _ _ => rfl⟩

/-- Settles O35: the rule is not given the payload, and emits without a condition. -/
theorem disconnectRequests : Obligations.DisconnectRequests :=
  ⟨encodedAs_id .disconnect, fun _ _ _ => rfl⟩

/-! ## The two kinds of command -/

/-- The check of R172 as the statements' table makes it. -/
theorem request_eq_elim (s : State) (c : CommandName) (p : List Byte) (r : Request) :
    s.request c p r = (Safety.unlessShort s.cfg p (need s.cfg.variant c) r).elim s s.emitReq := by
  unfold Safety.unlessShort
  split
  · next h => simp [State.request, Laws.not_skipped h]
  · next h =>
    obtain ⟨hlen, hz⟩ := not_or.1 h
    have hi : s.cfg.shortPayload = .ignore := by
      cases hs : s.cfg.shortPayload with
      | ignore => rfl
      | zeroFill => exact absurd hs hz
    simp [State.request, Laws.skipped_of_short (Nat.lt_of_not_le hlen) hi]

/-- Command by command, a pass-through command emits what the table of R173 to R183 asks for, and does nothing else. -/
theorem exec_passthrough {c : CommandName} (hc : c ∉ Safety.indicatorCommands) (src : Source) (p : List Byte)
    (s : State) : exec (Instr.ofName c src p) s =
      .next ((Safety.requestOfCommand s.cfg c ⟨src, s.cfg.cmdIds.id c, p⟩).elim s s.emitReq) := by
  cases c with
  | reset =>
    refine (exec_reset src p s).trans (congrArg Host.Outcome.next ?_)
    unfold Safety.requestOfCommand
    split <;> rfl
  | setMode | toggleMatrix | setMatrixColor | activateLayer | setSpeed | setMuteStatus =>
    exact congrArg Host.Outcome.next (request_eq_elim s _ p _)
  | endCall | connect | disconnect => rfl
  | echo => cases src <;> rfl
  | toggleIndicator | setIndicatorColor | enableIndicator | disableIndicator => exact absurd hc (by decide)

/-- Command by command, an indicator command is one write at its target, behind the check of R68; the write keeps the
enable bit of the entry or its colour. -/
theorem exec_indicator {c : CommandName} (hc : c ∈ Safety.indicatorCommands) (src : Source) (p : List Byte)
    (s : State) : ∃ f : Entry → Entry,
      exec (Instr.ofName c src p) s = .next (if skipped s.cfg c p then s
        else s.updateEntry (layerField s.cfg.variant p) (ledField s.cfg.variant p) f) ∧
      ∀ x, (f x).enabled = x.enabled ∨ (f x).color = x.color := by
  cases c with
  | toggleIndicator => exact ⟨_, exec_toggleIndicator src p s, fun _ => .inr rfl⟩
  | setIndicatorColor => exact ⟨_, exec_setIndicatorColor src p s, fun _ => .inl rfl⟩
  | enableIndicator => exact ⟨_, exec_enableIndicator src p s, fun _ => .inr rfl⟩
  | disableIndicator => exact ⟨_, exec_disableIndicator src p s, fun _ => .inr rfl⟩
  | _ => exact absurd hc (by decide)

theorem entryWritten_refl (s : State) (l e : Byte) : Safety.EntryWritten s s l e (s.entryAt l e) := by
  refine ⟨rfl, fun _ => rfl, fun a => ?_⟩
  split
  · next h => rw [h.2, State.entryAt]
  · rfl

/-- A write that can be skipped leaves at its target the entry that was there, or the one that it makes of it. -/
theorem entryWritten_skipIf (s : State) (l e : Byte) {f : Entry → Entry} (b : Bool)
    (hf : ∀ x, (f x).enabled = x.enabled ∨ (f x).color = x.color) :
    ∃ x, Safety.EntryWritten s (if b then s else s.updateEntry l e f) l e x ∧
      (x.enabled = (s.entryAt l e).enabled ∨ x.color = (s.entryAt l e).color) := by
  cases b with
  | true => exact ⟨_, entryWritten_refl s l e, .inl rfl⟩
  | false => exact ⟨_, entryWritten_updateEntry s l e f, hf _⟩

theorem reqTrace_skipIf (s : State) (l e : Byte) (f : Entry → Entry) (b : Bool) :
    (if b then s else s.updateEntry l e f).reqTrace = s.reqTrace := by
  cases b <;> rfl

theorem elim_emitReq_reqTrace (s : State) (o : Option Request) :
    (o.elim s s.emitReq).reqTrace = s.reqTrace ++ o.toList := by
  cases o with
  | none => exact (List.append_nil _).symm
  | some r => rfl

theorem elim_emitReq_array (s : State) (o : Option Request) : (o.elim s s.emitReq).array = s.array := by
  cases o <;> rfl

theorem isCommandEffect_frame {F : State → State} (hF : IsCommandEffect F) (s : State) :
    F s = { s with array := (F s).array, reqTrace := (F s).reqTrace } := by
  cases hF <;> rfl

/-- Settles O36: the frame is that of any command effect; what is written or requested depends on which of the two kinds
of command it is. -/
theorem commandEffectShape : Obligations.CommandEffectShape := by
  intro i s
  obtain ⟨F, hF, h⟩ := exec_hasCommandEffect s.cfg i
  have hexec : exec (Instr.ofName i.name i.src i.payload) s = .next (F s) := by
    rw [ofName_name_src_payload, h s rfl]
  refine ⟨F s, h s rfl, isCommandEffect_frame hF s, fun hlen hi => ?_, fun hc => ?_, fun hc => ?_⟩
  · exact Host.Outcome.next.inj (hexec.symm.trans (ignoreSkipsShortPayload i.name i.src i.payload s hi hlen))
  · obtain ⟨f, hf, hkeeps⟩ := exec_indicator hc i.src i.payload s
    rw [Host.Outcome.next.inj (hexec.symm.trans hf)]
    exact ⟨reqTrace_skipIf s _ _ f _, entryWritten_skipIf s _ _ _ hkeeps⟩
  · refine ⟨?_, hF.reqTrace_cases s⟩
    rw [Host.Outcome.next.inj (hexec.symm.trans (exec_passthrough hc i.src i.payload s)), elim_emitReq_array]

end Sys2Proof.Proofs
end

section
/-! `REQ` follows `DEC`: a dispatch records the decoded command and the request that the table gives for it, and nothing
else writes either trace but the reset step (spec/44_passthrough_commands.md R170 to R173, R184). -/

namespace Sys2Proof.Proofs

open Sys2Proof.Machine

theorem requestOfCommand_of_indicator {c : CommandName} (hc : c ∈ Safety.indicatorCommands) (cfg : Config)
    (d : Decoded) : Safety.requestOfCommand cfg c d = none := by
  cases c with
  | toggleIndicator | setIndicatorColor | enableIndicator | disableIndicator => rfl
  | _ => exact absurd hc (by decide)

/-- Either kind of command appends to `REQ` what the table asks for. -/
theorem exec_reqTrace {c : CommandName} {src : Source} {p : List Byte} {s t : State}
    (h : exec (Instr.ofName c src p) s = .next t) : t.reqTrace =
      s.reqTrace ++ (Safety.requestOfCommand s.cfg c ⟨src, s.cfg.cmdIds.id c, p⟩).toList := by
  by_cases hc : c ∈ Safety.indicatorCommands
  · obtain ⟨f, hf, -⟩ := exec_indicator hc src p s
    cases hf.symm.trans h
    rw [requestOfCommand_of_indicator hc, reqTrace_skipIf, Option.toList_none, List.append_nil]
  · cases (exec_passthrough hc src p s).symm.trans h
    exact elim_emitReq_reqTrace s _

/-- From `s` to `t`, `DEC` gained `d` and `REQ` the request that the table gives for `d`, if any. -/
def Records (s : State) (d : Decoded) (t : State) : Prop :=
  t.decTrace = s.decTrace ++ [d] ∧ t.reqTrace = s.reqTrace ++ (Safety.requestOf s.cfg d).toList

theorem dispatch_records {src : Source} {id : Byte} {p : List Byte} {s t : State}
    (h : dispatch src id p s = .next t) : Records s ⟨src, id, p⟩ t := by
  constructor
  · obtain ⟨F, hF, hd⟩ := dispatch_hasCommandEffect s.cfg src id p
    cases (hd s rfl).symm.trans h
    exact hF.decTrace_eq _
  · cases hl : lookupId s.cfg id with
    | none =>
      cases (dispatch_of_unknown hl src p).symm.trans h
      simp [Safety.requestOf, hl]
    | some c =>
      have hreq := exec_reqTrace ((dispatch_of_known hl src p).symm.trans h)
      simpa [Safety.requestOf, hl, Laws.lookupId_some hl] using hreq

theorem wf_of_step_next {s t : State} (h : step s = .next t) : s.cfg.wf = true := by
  rw [← Bool.not_eq_false]
  intro hw
  cases (step_of_not_wf hw).symm.trans h

/-- All that a step can do to the two traces. -/
theorem step_traces_cases {s t : State} (h : step s = .next t) :
    ((∃ rest, s.inputs = .reset :: rest) ∧ t.decTrace = [] ∧ t.reqTrace = []) ∨
      (t.decTrace = s.decTrace ∧ t.reqTrace = s.reqTrace) ∨ ∃ d, Records s d t := by
  have hw := wf_of_step_next h
  rcases step_next_cases h with ⟨-, rfl⟩ | ⟨op, rest, hi, hp⟩
  · exact .inr (.inl ⟨rfl, rfl⟩)
  · cases hp with
    | reset => exact .inl ⟨⟨rest, hi⟩, rfl, rfl⟩
    | access hF => exact .inr (.inl ⟨hF.decTrace_eq _, hF.reqTrace_eq _⟩)
    | byte => exact .inr (.inl ⟨rfl, rfl⟩)
    | block hp hF =>
      exact .inr (.inr ⟨_, dispatch_records (s := { s with inputs := rest })
        ((step_blockFrame_eq hw hi hp).symm.trans h)⟩)
    | frame hp hF =>
      exact .inr (.inr ⟨_, dispatch_records (s := { s with inputs := rest, rx := _ })
        ((step_of_complete hw hi hp).symm.trans h)⟩)

/-- Settles O58: a reset empties both traces, and a recorded command adds to `REQ` what the table gives for its one
event on `DEC`. -/
theorem requestsFollowDecoded : Obligations.RequestsFollowDecoded := by
  refine ⟨fun _ => rfl, fun s t hs h => ?_⟩
  rw [configFixed s t h]
  rcases step_traces_cases h with ⟨-, hdec, hreq⟩ | ⟨hdec, hreq⟩ | ⟨d, hdec, hreq⟩
  · rw [hdec, hreq, List.filterMap_nil]
  · rw [hdec, hreq, hs]
  · rw [hdec, hreq, hs, List.filterMap_append, List.filterMap_eq_flatMap_toList _ [d], List.flatMap_singleton]

/-- In the table only Reset asks for a hard reset, and only with its magic (R173). -/
theorem requestOfCommand_eq_hardReset {cfg : Config} {c : CommandName} {d : Decoded}
    (h : Safety.requestOfCommand cfg c d = some .hardReset) :
    c = .reset ∧ d.payload.take 4 = [0xDE, 0xAD, 0xF0, 0x00] := by
  cases c with
  | reset => exact ⟨rfl, (Option.ite_none_right_eq_some.1 h).1⟩
  | echo =>
    unfold Safety.requestOfCommand at h
    cases hs : d.src <;> simp [hs] at h
  | _ => simp [Safety.requestOfCommand, Safety.unlessShort] at h

theorem requestOf_eq_hardReset {cfg : Config} {d : Decoded} (h : Safety.requestOf cfg d = some .hardReset) :
    d.cmd = cfg.cmdIds.id .reset ∧ d.payload.take 4 = [0xDE, 0xAD, 0xF0, 0x00] := by
  unfold Safety.requestOf at h
  split at h
  · cases h
  · next c hl =>
    obtain ⟨rfl, hmagic⟩ := requestOfCommand_eq_hardReset h
    exact ⟨(Laws.lookupId_some hl).symm, hmagic⟩

/-- Settles O59: only a recorded command appends to `REQ`, at most one event, and by the table a `HardReset` is that
of a Reset with its magic. -/
theorem hardResetOnlyByMagic : Obligations.HardResetOnlyByMagic := by
  intro s t h
  rcases step_traces_cases h with ⟨hreset, -, hreq⟩ | ⟨-, hreq⟩ | ⟨d, hdec, hreq⟩
  · exact .inl ⟨hreset, hreq⟩
  · exact .inr ⟨[], by rw [hreq, List.append_nil], fun hmem => absurd hmem List.not_mem_nil⟩
  · refine .inr ⟨_, hreq, fun hmem => ?_⟩
    have hd : Safety.requestOf s.cfg d = some .hardReset := Option.mem_toList.1 hmem
    exact ⟨by rw [hd, Option.toList_some], d, hdec, requestOf_eq_hardReset hd⟩

/-! ## The step of a completed frame -/

theorem dispatch_of_decoded {src : Source} {id : Byte} {p : List Byte} {s : State} {i : Instr}
    (h : decodeCommand s.cfg src id p = .ok i) : dispatch src id p s = exec i (s.emitDec ⟨src, id, p⟩) := by
  simp only [dispatch, h]

/-- A stream byte that completes a frame of a known id runs its command. -/
theorem step_of_decoded {s : State} {b : Byte} {rest : List PortOp} {p : List Byte} {i : Instr}
    (hw : s.cfg.wf = true) (hi : s.inputs = .streamByte b :: rest)
    (hp : completedPayload s.cfg.maxBufLen b s.rx = some p)
    (hd : decodeCommand s.cfg .stream s.rx.cmd p = .ok i) :
    step s = exec i { s with
      inputs := rest
      rx := regsAfter s.cfg.maxBufLen b s.rx
      decTrace := s.decTrace ++ [⟨.stream, s.rx.cmd, p⟩] } :=
  (step_of_complete hw hi hp).trans
    (dispatch_of_decoded (s := { s with inputs := rest, rx := regsAfter s.cfg.maxBufLen b s.rx }) hd)

/-- Settles O19: each of the three completions is a dispatch, whose lookup is the one that decodes the frame. -/
theorem stepRunsDecodedCommand : Obligations.StepRunsDecodedCommand := by
  intro s i rest hw
  refine ⟨fun f hi hdec => ?_, fun hi hd hdec => ?_, fun b hi hd hlen hdec => ?_⟩
  · obtain ⟨id, p, rfl, hp, hcmd⟩ := decode_block_iff.1 hdec
    rw [List.append_nil] at hi
    obtain ⟨hid, -, hpay⟩ := decodeCommand_ok hcmd
    rw [step_blockFrame_eq hw hi hp, hid, hpay]
    exact dispatch_of_decoded (s := { s with inputs := rest }) hcmd
  · have hs := step_of_decoded hw hi ((completedPayload_of_awLen _ 0x00 hd).trans (if_pos rfl)) hdec
    rwa [regsAfter_of_awLen _ 0x00 hd] at hs
  · rw [← Laws.takePayload_buf] at hdec ⊢
    have hs := step_of_decoded hw hi ((completedPayload_of_awPay _ b hd).trans (if_pos hlen)) hdec
    rwa [regsAfter_of_awPay _ b hd, Laws.takePayload_complete hlen] at hs

end Sys2Proof.Proofs
end

section
/-! A step always answers: there is no fault to stop with, and an operation that its port takes is performed to the end
(spec/60_exceptions.md R200). -/

namespace Sys2Proof.Proofs

open Sys2Proof.Machine

/-- Under a valid record a step waits, or performs the operation it takes to the end. -/
theorem step_next {s : State} (hw : s.cfg.wf = true)
    (ho : ∀ op rest, s.inputs = op :: rest → Safety.PortOpOk s.cfg op) : ∃ t, step s = .next t := by
  cases hi : s.inputs with
  | nil => exact ⟨s, step_of_inputs_nil hw hi⟩
  | cons op rest =>
    obtain ⟨t, ht⟩ := perform_next (s := { s with inputs := rest }) hw (ho op rest hi)
    exact ⟨t, (Laws.step_of_inputs hw hi).trans ht⟩

/-- Settles O10: the model has no fault reason, as R200 asks, and under a valid record no operation that its port takes
is refused. -/
theorem stepTotal : Obligations.StepTotal :=
  ⟨fun _ r => (nomatch r), fun _ hw ho => step_next hw ho⟩

end Sys2Proof.Proofs
end

section
/-! A step on the reset input, and a stream byte that completes no frame: what each leaves of the state
(spec/70_reset_and_hazards.md R220, R229). -/

namespace Sys2Proof.Proofs

open Sys2Proof.Machine

/-- A stream byte completes a frame as a zero length or as the last payload byte, and in no other way
(spec/40_stream_decoder.md R102, R105). -/
theorem completedPayload_eq_none_iff {cap : Nat} {b : Byte} {rx : StreamRegs} :
    completedPayload cap b rx = none ↔
      ¬ (rx.dst = .awLen ∧ b = 0x00) ∧ ¬ (rx.dst = .awPay ∧ rx.idx + 0x01 = rx.len) := by
  cases hd : rx.dst with
  | awCmd => simp [completedPayload_of_awCmd cap b hd]
  | awLen => simp [completedPayload_of_awLen cap b hd]
  | awPay => simp [completedPayload_of_awPay cap b hd]
  | invalid => simp [completedPayload_of_invalid cap b hd]

/-- Settles O55: such a byte completes no frame, so the step writes the decoder registers and dispatches nothing. -/
theorem noEffectBeforeCompletion : Obligations.NoEffectBeforeCompletion := fun _ _ _ hw hi hlen hpay =>
  ⟨_, step_of_incomplete hw hi (completedPayload_eq_none_iff.2 ⟨hlen, hpay⟩)⟩

/-- Settles O6: the reset step answers the reset state of the record it keeps, with the operations that follow. -/
theorem resetStepRestoresReset : Obligations.ResetStepRestoresReset := by
  intro s rest hw hi
  have hstep : step s = .next { State.resetFor s.cfg with inputs := rest } := Laws.step_of_inputs hw hi
  have hvalues := resetStateValues.2 s.cfg
  obtain ⟨hdst, hcmd, hlen, hidx, hbuf, -, hdec, hreq⟩ := hvalues 0x00 0x00
  refine ⟨_, hstep, hdst, hcmd, hlen, hidx, hbuf, fun l e => ?_, hdec, hreq, rfl, rfl⟩
  obtain ⟨-, -, -, -, -, hentry, -⟩ := hvalues l e
  exact hentry

end Sys2Proof.Proofs
end

section
/-! With no operation offered the machine waits (spec/60_exceptions.md section 4). -/

namespace Sys2Proof.Proofs

/-- Settles O11: with its port empty, a step under a valid record answers the state it began in. -/
theorem idleWaits : Obligations.IdleWaits := fun _ hw hi => step_of_inputs_nil hw hi

end Sys2Proof.Proofs
end
